-- ==== Sys2Proof/Word.lean ====
section
/-!
DEFINITION. The word type of the ports (20_memory.md R61, R71) and the type of one buffer byte.
-/

namespace Sys2Proof

/-- A 32-bit word: a register value, a header word, a response word, CMD0 (20_memory.md R61, 30_encoding.md R100). -/
abbrev Word := BitVec 32

/-- One byte of the buffer space (20_memory.md R72). -/
abbrev Byte := BitVec 8

end Sys2Proof
end

