-- ==== Sys2Proof/Config.lean ====
section
/-!
DEFINITION. The parameters of 00_scope.md Table 00-1 (R6), each under its own name with the table's default, the types
whose width is a parameter, and the free values: what the spec leaves under no law (`draw`, and every value a register read
returns). The model takes the parameters as an argument `P : Params`: the types that depend on one, State among them, and
the definitions that use one are over `P`. Left out, `P` is `Config.params`, all defaults; `exec` and `step`, whose forms
the host fixes, are the machine at the defaults. No other file writes one of these numbers where a rule names it (log 23).
-/

namespace Sys2Proof

/-- The parameters the model takes as an argument (00_scope.md R6, Table 00-1; 93_implementation_defined.md U21, U22). -/
structure Params where
  /-- `N_CTLR`, entries of the controller table (D19). -/
  nCtlr : Nat := 4
  /-- `ADDR_W`, width of register-port and buffer-port addresses and of CMD1 (D24, 30_encoding.md R100). -/
  addrW : Nat := 32
  /-- `PERIPH_ID_W`, width of a peripheral clock identifier (D19). -/
  periphIdW : Nat := 8
  /-- `PINMUX_W`, width of a pin-mux selection (D19). -/
  pinmuxW : Nat := 8
  /-- `FIFO_DEPTH`, the empty-slot count WAITTX waits for (D5). -/
  fifoDepth : Nat := 8
  /-- `TIMEOUT_US`, the budget of one poll (D10). -/
  timeoutUs : Nat := 10000
  /-- `POLL_US`, the interval between two samples (D10). -/
  pollUs : Nat := 10
  /-- `PAYLOAD_W`, width of the payload-size field of header word 2 (D8). -/
  payloadW : Nat := 12
  /-- `PKT_SEQ_ID`, the packet sequence id of every transaction (R143, D9). -/
  pktSeqId : BitVec 8 := 1
  /-- `PROTOCOL_I2C`, the protocol-type constant of header word 1 (D8). -/
  protocolI2c : Word := 1
  /-- `HDR1_PROT_LSB` and `HDR1_PROT_W` (D8). -/
  hdr1ProtLsb : Nat := 4
  hdr1ProtW : Nat := 4
  /-- `HDR1_CTLR_LSB` and `HDR1_CTLR_W` (D8). -/
  hdr1CtlrLsb : Nat := 12
  hdr1CtlrW : Nat := 4
  /-- `HDR1_SEQ_LSB` and `HDR1_SEQ_W` (D8). -/
  hdr1SeqLsb : Nat := 16
  hdr1SeqW : Nat := 8
  /-- `HDR2_SIZE_LSB` (D8); its width is `PAYLOAD_W`. -/
  hdr2SizeLsb : Nat := 0
  /-- `HDR3_ADDR_LSB` and `HDR3_ADDR_W` (D8). -/
  hdr3AddrLsb : Nat := 0
  hdr3AddrW : Nat := 10
  /-- `HDR3_READ_BIT` (D8). -/
  hdr3ReadBit : Nat := 19
  /-- `OFF_TX_FIFO` (D4). -/
  offTxFifo : BitVec addrW := 0x00
  /-- `OFF_RX_FIFO` (D4). -/
  offRxFifo : BitVec addrW := 0x04
  /-- `OFF_FIFO_STATUS` (D4). -/
  offFifoStatus : BitVec addrW := 0x10
  /-- `OFF_INT_STATUS` (D4). -/
  offIntStatus : BitVec addrW := 0x18
  /-- `OFF_CNFG`, standard controller (D4). -/
  offCnfg : BitVec addrW := 0x00
  /-- `OFF_CNFG_DVC`, DVC variant (D4). -/
  offCnfgDvc : BitVec addrW := 0x40
  /-- `OFF_SL_CNFG`, standard controller only (D4). -/
  offSlCnfg : BitVec addrW := 0x20
  /-- `FS_TX_EMPTY_LSB` and `FS_TX_EMPTY_W` (D5). -/
  fsTxEmptyLsb : Nat := 4
  fsTxEmptyW : Nat := 4
  /-- `FS_RX_FULL_LSB` and `FS_RX_FULL_W` (D5). -/
  fsRxFullLsb : Nat := 0
  fsRxFullW : Nat := 4
  /-- `IS_XFER_DONE_BIT` (D6). -/
  isXferDoneBit : Nat := 7
  /-- `IS_NOACK_BIT` (D6). -/
  isNoackBit : Nat := 3
  /-- `IS_ARB_LOST_BIT` (D6). -/
  isArbLostBit : Nat := 2
  /-- `CNFG_PACKET_VALUE`, the word written to CNFG (D7). -/
  cnfgPacketValue : Word := 0x00000C00
  /-- `SL_NEWSL_MASK`, the slave-config compatibility bit (D7). -/
  slNewslMask : Word := 0x00000004
  /-- `RESET_HOLD_US`, how long the peripheral reset is held: timing only, read by no rule (D20). -/
  resetHoldUs : Nat := 1
  deriving DecidableEq, Repr

/-- `N_POLL`, samples one poll takes before it times out: `floor(TIMEOUT_US / POLL_US) + 1` (R170, D10). -/
def Params.nPoll (P : Params) : Nat := P.timeoutUs / P.pollUs + 1

/-- The width of `polls`: enough for `N_POLL`, 10 bits at the default (10_state.md R30). -/
def Params.pollsW (P : Params) : Nat := Nat.log2 P.nPoll + 1

/-- `LEN_MAX = 2^PAYLOAD_W` (D15). -/
def Params.lenMax (P : Params) : Nat := 2 ^ P.payloadW

/-- The fields of width `w` at bit `l` and of width `w'` at bit `l'` have no bit in common. -/
def fieldsApart (l w l' w' : Nat) : Bool := decide (l + w ≤ l') || decide (l' + w' ≤ l)

/-- The constraints the parameters must meet (R6, the paragraph after Table 00-1): depth, field sizes, table size,
distinct status bits, neither error bit at position 0, the fields of one header word apart. -/
def Params.constraintsHold (P : Params) : Bool :=
  decide (4 ≤ P.fifoDepth) && decide (P.fifoDepth < 2 ^ P.fsTxEmptyW) && decide (P.nCtlr ≤ 2 ^ P.hdr1CtlrW) &&
  decide (P.nCtlr ≤ 16) && decide (P.lenMax ≤ 4096) &&
  decide (P.isXferDoneBit ≠ P.isNoackBit) && decide (P.isXferDoneBit ≠ P.isArbLostBit) &&
  decide (P.isNoackBit ≠ P.isArbLostBit) && decide (P.isNoackBit ≠ 0) && decide (P.isArbLostBit ≠ 0) &&
  fieldsApart P.hdr1ProtLsb P.hdr1ProtW P.hdr1CtlrLsb P.hdr1CtlrW &&
  fieldsApart P.hdr1ProtLsb P.hdr1ProtW P.hdr1SeqLsb P.hdr1SeqW &&
  fieldsApart P.hdr1CtlrLsb P.hdr1CtlrW P.hdr1SeqLsb P.hdr1SeqW &&
  fieldsApart P.hdr3AddrLsb P.hdr3AddrW P.hdr3ReadBit 1

/-- Every parameter at its default of Table 00-1: the machine that `exec` and `step` are. -/
abbrev Config.params : Params := {}

/-- The widths at the defaults, for arithmetic on addresses and counts. -/
@[simp] theorem Config.params_addrW : Config.params.addrW = 32 := rfl

@[simp] theorem Config.params_pollsW : Config.params.pollsW = 10 := rfl

/-- A byte address of the register space or of the buffer space; addition wraps modulo `2^ADDR_W` (00_scope.md R8). -/
abbrev Addr (P : Params := Config.params) := BitVec P.addrW

/-- A peripheral clock identifier (10_state.md Table 10-1). -/
abbrev PeriphId (P : Params := Config.params) := BitVec P.periphIdW

/-- A pin-mux selection (10_state.md Table 10-1). -/
abbrev Pinmux (P : Params := Config.params) := BitVec P.pinmuxW

namespace Config

/-- FREE VALUE (log 2). What the controller returns to a register read that no scripted answer covers, as a function
of the number of free values drawn before: any value, under no law (10_state.md R35, U10). -/
opaque regValue : Nat → Word

/-- FREE VALUE (log 3). The `draw_N()` of 00_scope.md Table 00-2: pad bytes of a partial final write word and of
PROBE's word (41_word_mover.md R154, R163, U4), and the size field of a header for `d_len = 0` (R144, log 14). -/
opaque draw : Nat → Word

end Config

end Sys2Proof
end

