-- ==== Sys2Proof/Machine/Memory.lean ====
section
/-!
DEFINITION. The buffer space as a list of (address, byte) cells in one canonical form (20_memory.md R60, R70, R72).
An unlisted address is one the environment admits no read of (log 4), so no listed entry can equal it.
-/

namespace Sys2Proof.Machine

/-- The byte at an address, if one is listed. -/
def memGet : List Host.Cell → Nat → Option Byte
  | [], _ => none
  | (k, b) :: rest, a => if k = a then some b else memGet rest a

/-- Store one byte, keeping the addresses strictly rising. -/
def memPut : List Host.Cell → Nat → Byte → List Host.Cell
  | [], a, b => [(a, b)]
  | (k, c) :: rest, a, b =>
    if a < k then (a, b) :: (k, c) :: rest
    else if a = k then (a, b) :: rest
    else (k, c) :: memPut rest a b

/-- Strictly rising addresses, all above `lo` where one is given. -/
def memRising : Option Nat → List Host.Cell → Bool
  | _, [] => true
  | none, (k, _) :: rest => memRising (some k) rest
  | some lo, (k, _) :: rest => decide (lo < k) && memRising (some k) rest

/-- The canonical form: addresses strictly rising and inside the address space of `ADDR_W` bits. -/
def memWf (m : List Host.Cell) (P : Params := Config.params) : Bool :=
    memRising none m && m.all fun c => decide (c.1 < 2 ^ P.addrW)

/-- Byte `j` of a word: bits `8j+7 : 8j` (20_memory.md R72). -/
def byteOf (w : Word) (j : Nat) : Byte := w.extractLsb' (8 * j) 8

/-- The word of four bytes, the one at the lowest address in bits 7:0 (20_memory.md R72). -/
def wordOf (b0 b1 b2 b3 : Byte) : Word := b3 ++ b2 ++ b1 ++ b0

end Sys2Proof.Machine
end

