-- ==== Sys2Proof/Syntax.lean ====
section
/-!
DEFINITION. The instruction type: one constructor per row of spec/opcode_table.json, which lists CORE's four
encodings: commands, packet header words, responses, sequencer states (30_encoding.md).
-/

namespace Sys2Proof

/-- Everything CORE's encodings name. Commands carry the fields acceptance latches (44_transactions.md R200); PROBE has
no `len`, because two PROBE words that differ only there are the same command (95_test_vectors.md section 2.1). -/
inductive Instr where
  /-- INIT: reset and configure controller `ctlr` (43_recovery.md R196). -/
  | init (ctlr : BitVec 4) (ten : Bool) (len : BitVec 13) (addr7 : BitVec 7) (buf : Addr)
  /-- WRITE: `len` bytes at `buf` to device `addr7` (44_transactions.md R202). -/
  | write (ctlr : BitVec 4) (ten : Bool) (len : BitVec 13) (addr7 : BitVec 7) (buf : Addr)
  /-- READ: `len` bytes from device `addr7` to `buf` (44_transactions.md R203). -/
  | read (ctlr : BitVec 4) (ten : Bool) (len : BitVec 13) (addr7 : BitVec 7) (buf : Addr)
  /-- PROBE: is a device present at `addr7` (44_transactions.md R204). -/
  | probe (ctlr : BitVec 4) (ten : Bool) (addr7 : BitVec 7) (buf : Addr)
  /-- Header word 1: sequence id and controller id; the protocol type is a constant (30_encoding.md R107). -/
  | hdr1 (seq : BitVec 8) (ctlrId : BitVec 4)
  /-- Header word 2: payload length minus one (30_encoding.md R108). -/
  | hdr2 (sizeMinus1 : BitVec 12)
  /-- Header word 3: direction, which stands twice in the word, and 7-bit address (30_encoding.md R109). -/
  | hdr3 (read : Bool) (addr7 : BitVec 7)
  /-- Response OK (44_transactions.md R207). -/
  | rspOk (present : Bool) (detail : Word)
  /-- Response Timeout (42_poller.md R176). -/
  | rspTimeout (present : Bool) (detail : Word)
  /-- Response NoAcknowledge (42_poller.md R173). -/
  | rspNoAcknowledge (present : Bool) (detail : Word)
  /-- Response ArbitrationLost (42_poller.md R173). -/
  | rspArbitrationLost (present : Bool) (detail : Word)
  /-- Response UnsupportedAddressWidth (44_transactions.md R201). -/
  | rspUnsupportedAddressWidth (present : Bool) (detail : Word)
  /-- Response BusNotReady (44_transactions.md R201). -/
  | rspBusNotReady (present : Bool) (detail : Word)
  /-- Sequencer state 0, IDLE (44_transactions.md R200). -/
  | seqIdle
  /-- Sequencer state 1, CHECK (44_transactions.md R201). -/
  | seqCheck
  /-- Sequencer state 2, CLR_RD (44_transactions.md R206). -/
  | clrstClrRd
  /-- Sequencer state 3, CLR_WR (44_transactions.md R206). -/
  | clrstClrWr
  /-- Sequencer state 4, HDR1 (40_header_encoder.md R140). -/
  | hdrHdr1
  /-- Sequencer state 5, HDR2 (40_header_encoder.md R140). -/
  | hdrHdr2
  /-- Sequencer state 6, HDR3 (40_header_encoder.md R140, 41_word_mover.md R150). -/
  | hdrHdr3
  /-- Sequencer state 7, WR_FETCH (41_word_mover.md R152 to R154, R163). -/
  | pushwWrFetch
  /-- Sequencer state 8, WR_PUSH (41_word_mover.md R152). -/
  | pushwWrPush
  /-- Sequencer state 9, WR_WAIT (42_poller.md R171). -/
  | waittxWrWait
  /-- Sequencer state 10, RD_WAIT (42_poller.md R172). -/
  | waitrxRdWait
  /-- Sequencer state 11, RD_POP (41_word_mover.md R156). -/
  | popwRdPop
  /-- Sequencer state 12, RD_STORE (41_word_mover.md R157). -/
  | popwRdStore
  /-- Sequencer state 13, DONE_WAIT (42_poller.md R173). -/
  | waitdoneDoneWait
  /-- Sequencer state 14, REC_RESET (43_recovery.md R191). -/
  | recoverRecReset
  /-- Sequencer state 15, REC_CNFG (43_recovery.md R192). -/
  | recoverRecCnfg
  /-- Sequencer state 16, REC_SL_RD (43_recovery.md R193). -/
  | recoverRecSlRd
  /-- Sequencer state 17, REC_SL_WR (43_recovery.md R193). -/
  | recoverRecSlWr
  /-- Sequencer state 18, RESPOND (44_transactions.md R207, R208). -/
  | seqRespond
  deriving DecidableEq, Repr

end Sys2Proof
end

