-- ==== Sys2Proof/Decode.lean ====
section
/-!
DEFINITION. Decoding and encoding of the rows of spec/opcode_table.json (30_encoding.md). Which of CORE's encodings a
word is in is said by the port and the place it stands in, not by the word (log 19): `Format` names the place.
`decode` is total on any list of words and rejects by name. The encoder follows it, from the same tables.
-/

namespace Sys2Proof

/-- Where a word stands: on the command port, in one of the three header places, on the response port, in `st`. -/
inductive Format where
  | cmd | hdr1 | hdr2 | hdr3 | rsp | useq
  deriving DecidableEq, Repr

/-- Why words are no instruction. -/
inductive DecodeError where
  /-- Not as many words as the format has (30_encoding.md R100). -/
  | wordCount
  /-- A command whose `op` is 0 or 5 to 15 (R104). -/
  | reservedOp
  /-- A command with one of bits 22:20 set (R104). -/
  | reservedBits
  /-- A header word with a bit set outside its fields, or another protocol type (R106, R107). -/
  | headerBits
  /-- A header word 3 whose two direction bits differ (R109). -/
  | headerDirection
  /-- A response with `kind` 6 or 7 or one of bits 31:4 set (R111, R112). -/
  | responseBits
  /-- A state code of 19 or more (10_state.md R32). -/
  | stateCode
  deriving DecidableEq, Repr

/-- The length domain, `1 <= len <= LEN_MAX` (R117). -/
def lengthInDomain (len : BitVec 13) (P : Params := Config.params) : Bool :=
  decide (1 ≤ len.toNat) && decide (len.toNat ≤ P.lenMax)

/-- Does a word match a row's `match` under its `mask`? -/
def matchesRow (mask value w : Word) : Bool := decide (w &&& mask = value)

/-- The field of `v` with least significant bit `lsb` and width `w`. -/
def getField (lsb w : Nat) (v : Word) : BitVec w := v.extractLsb' lsb w

/-- The value `v`, truncated to `w` bits, placed at bit `lsb` (R107: an over-wide value is truncated). -/
def putField (lsb w : Nat) (v : Word) : Word := ((v.setWidth w).setWidth 32) <<< lsb

/-- The bits of a word that lie in the field of width `w` at bit `lsb`. -/
def fieldMask (lsb w : Nat) : Word := BitVec.ofNat 32 (2 ^ w - 1) <<< lsb

/-- `addr7` and the direction as the 8-bit address, `(addr7 << 1) | read` (R105). -/
def addr8Of (addr7 : BitVec 7) (read : Bool) : BitVec 8 :=
  ((addr7.setWidth 8) <<< 1) ||| (BitVec.ofBool read).setWidth 8

/-- The commands, by `op` (R103, Table 30-2). -/
inductive CommandOp where
  | init | write | read | probe
  deriving DecidableEq, Repr

/-- The fields of CMD0 (R101, Table 30-1). -/
structure CommandFields where
  op : CommandOp
  ctlr : BitVec 4
  ten : Bool
  len : BitVec 13
  addr7 : BitVec 7
  deriving DecidableEq, Repr

/-- `op` from its code; 0 and 5 to 15 are reserved (R103, R104). -/
def decodeOp (code : BitVec 4) : Except DecodeError CommandOp :=
  if code = 1 then .ok .init
  else if code = 2 then .ok .write
  else if code = 3 then .ok .read
  else if code = 4 then .ok .probe
  else .error .reservedOp

/-- CMD0, 32 bits whatever `ADDR_W` is (R100, R101, R104). -/
def decodeCmd0 (c0 : Word) : Except DecodeError CommandFields :=
  if c0.extractLsb' 20 3 ≠ 0 then .error .reservedBits
  else match decodeOp (c0.extractLsb' 28 4) with
    | .ok op => .ok { op := op, ctlr := c0.extractLsb' 24 4, ten := c0.getLsbD 23,
                      len := c0.extractLsb' 7 13, addr7 := c0.extractLsb' 0 7 }
    | .error e => .error e

/-- The command of CMD0's fields and CMD1, the buffer address (R102); PROBE's constructor carries no `len` (log 29). -/
def CommandFields.instr (c : CommandFields) (buf : Addr) : Instr :=
  match c.op with
  | .init => .init c.ctlr c.ten c.len c.addr7 buf
  | .write => .write c.ctlr c.ten c.len c.addr7 buf
  | .read => .read c.ctlr c.ten c.len c.addr7 buf
  | .probe => .probe c.ctlr c.ten c.addr7 buf

/-- A command from CMD0 and CMD1, which has `ADDR_W` bits (R100 to R104). -/
def decodeCommand (c0 : Word) (c1 : Addr) : Except DecodeError Instr :=
  match decodeCmd0 c0 with
  | .ok c => .ok (c.instr c1)
  | .error e => .error e

/-- Header word 1 (R107): outside its two variable fields, the protocol type in its field and zeros. -/
def decodeHdr1 (w : Word) (P : Params := Config.params) : Except DecodeError Instr :=
  if matchesRow (~~~(fieldMask P.hdr1SeqLsb P.hdr1SeqW ||| fieldMask P.hdr1CtlrLsb P.hdr1CtlrW))
      (putField P.hdr1ProtLsb P.hdr1ProtW P.protocolI2c) w then
    .ok (.hdr1 ((getField P.hdr1SeqLsb P.hdr1SeqW w).setWidth 8) ((getField P.hdr1CtlrLsb P.hdr1CtlrW w).setWidth 4))
  else .error .headerBits

/-- Header word 2 (R108): zeros outside its field. -/
def decodeHdr2 (w : Word) (P : Params := Config.params) : Except DecodeError Instr :=
  if matchesRow (~~~fieldMask P.hdr2SizeLsb P.payloadW) 0 w then
    .ok (.hdr2 ((getField P.hdr2SizeLsb P.payloadW w).setWidth 12))
  else .error .headerBits

/-- Header word 3 (R109): zeros outside its two fields and above the 8 bits of the address in its field, and both copies
of the direction, the low bit of the address and the direction bit, agree. -/
def decodeHdr3 (w : Word) (P : Params := Config.params) : Except DecodeError Instr :=
  let addr := getField P.hdr3AddrLsb P.hdr3AddrW w
  if matchesRow (~~~(fieldMask P.hdr3AddrLsb P.hdr3AddrW ||| fieldMask P.hdr3ReadBit 1)) 0 w &&
      decide (addr.toNat < 2 ^ 8)
  then
    if w.getLsbD P.hdr3ReadBit = addr.getLsbD 0 then .ok (.hdr3 (w.getLsbD P.hdr3ReadBit) (addr.extractLsb' 1 7))
    else .error .headerDirection
  else .error .headerBits

/-- A response from RSP0 and RSP1 (R111, R112). -/
def decodeResponse (r0 r1 : Word) : Except DecodeError Instr :=
  let present := r0.getLsbD 3
  if matchesRow 0xFFFFFFF7 0 r0 then .ok (.rspOk present r1)
  else if matchesRow 0xFFFFFFF7 1 r0 then .ok (.rspTimeout present r1)
  else if matchesRow 0xFFFFFFF7 2 r0 then .ok (.rspNoAcknowledge present r1)
  else if matchesRow 0xFFFFFFF7 3 r0 then .ok (.rspArbitrationLost present r1)
  else if matchesRow 0xFFFFFFF7 4 r0 then .ok (.rspUnsupportedAddressWidth present r1)
  else if matchesRow 0xFFFFFFF7 5 r0 then .ok (.rspBusNotReady present r1)
  else .error .responseBits

/-- A sequencer state from its code (10_state.md Table 10-3; codes 19 to 31 are never taken). -/
def decodeState (code : Nat) : Except DecodeError Instr :=
  match code with
  | 0 => .ok .seqIdle
  | 1 => .ok .seqCheck
  | 2 => .ok .clrstClrRd
  | 3 => .ok .clrstClrWr
  | 4 => .ok .hdrHdr1
  | 5 => .ok .hdrHdr2
  | 6 => .ok .hdrHdr3
  | 7 => .ok .pushwWrFetch
  | 8 => .ok .pushwWrPush
  | 9 => .ok .waittxWrWait
  | 10 => .ok .waitrxRdWait
  | 11 => .ok .popwRdPop
  | 12 => .ok .popwRdStore
  | 13 => .ok .waitdoneDoneWait
  | 14 => .ok .recoverRecReset
  | 15 => .ok .recoverRecCnfg
  | 16 => .ok .recoverRecSlRd
  | 17 => .ok .recoverRecSlWr
  | 18 => .ok .seqRespond
  | _ => .error .stateCode

/-- Decoding, total on any list of words in any place. -/
def decode (f : Format) (ws : List Word) (P : Params := Config.params) : Except DecodeError Instr :=
  match f, ws with
  | .cmd, [c0, c1] => decodeCommand c0 c1
  | .hdr1, [w] => decodeHdr1 w P
  | .hdr2, [w] => decodeHdr2 w P
  | .hdr3, [w] => decodeHdr3 w P
  | .rsp, [r0, r1] => decodeResponse r0 r1
  | .useq, [w] => decodeState w.toNat
  | _, _ => .error .wordCount

/-- The place an instruction's words stand in. -/
def Instr.format : Instr → Format
  | .init .. | .write .. | .read .. | .probe .. => .cmd
  | .hdr1 .. => .hdr1
  | .hdr2 .. => .hdr2
  | .hdr3 .. => .hdr3
  | .rspOk .. | .rspTimeout .. | .rspNoAcknowledge .. => .rsp
  | .rspArbitrationLost .. | .rspUnsupportedAddressWidth .. | .rspBusNotReady .. => .rsp
  | .seqIdle | .seqCheck | .clrstClrRd | .clrstClrWr | .hdrHdr1 | .hdrHdr2 | .hdrHdr3 => .useq
  | .pushwWrFetch | .pushwWrPush | .waittxWrWait | .waitrxRdWait | .popwRdPop | .popwRdStore => .useq
  | .waitdoneDoneWait | .recoverRecReset | .recoverRecCnfg | .recoverRecSlRd | .recoverRecSlWr => .useq
  | .seqRespond => .useq

/-- How many words a format has (R100). -/
def Format.words : Format → Nat
  | .cmd | .rsp => 2
  | .hdr1 | .hdr2 | .hdr3 | .useq => 1

/-- CMD0, bit 31 first: op, ctlr, ten, the reserved zeros, len, addr7 (Table 30-1). -/
def cmdWord0 (op ctlr : BitVec 4) (ten : Bool) (len : BitVec 13) (addr7 : BitVec 7) : Word :=
  op ++ ctlr ++ BitVec.ofBool ten ++ 0#3 ++ len ++ addr7

/-- HDR1: protocol type, sequence id, controller id in their fields, every other bit 0 (R106, R107). -/
def hdr1Word (seq : BitVec 8) (ctlrId : BitVec 4) (P : Params := Config.params) : Word :=
  putField P.hdr1ProtLsb P.hdr1ProtW P.protocolI2c
    ||| putField P.hdr1SeqLsb P.hdr1SeqW (seq.setWidth 32)
    ||| putField P.hdr1CtlrLsb P.hdr1CtlrW (ctlrId.setWidth 32)

/-- HDR2: payload length minus one in its field (R106, R108). -/
def hdr2Word (sizeMinus1 : BitVec 12) (P : Params := Config.params) : Word :=
  putField P.hdr2SizeLsb P.payloadW (sizeMinus1.setWidth 32)

/-- HDR3: the 8-bit address, zero-extended to the field, and the direction bit (R106, R109). -/
def hdr3Word (addr8 : BitVec 8) (read : Bool) (P : Params := Config.params) : Word :=
  putField P.hdr3AddrLsb P.hdr3AddrW (addr8.setWidth 32)
    ||| putField P.hdr3ReadBit 1 ((BitVec.ofBool read).setWidth 32)

/-- RSP0: kind code in bits 2:0, present in bit 3, zeros above (R111). -/
def rspWord0 (kind : BitVec 3) (present : Bool) : Word := 0#28 ++ BitVec.ofBool present ++ kind

/-- The words of an instruction, from the same tables of the spec. A field the command ignores and the constructor does
not carry (PROBE's `len`) is encoded as 0. -/
def encode (i : Instr) (P : Params := Config.params) : List Word :=
  match i with
  | .init ctlr ten len addr7 buf => [cmdWord0 1 ctlr ten len addr7, buf]
  | .write ctlr ten len addr7 buf => [cmdWord0 2 ctlr ten len addr7, buf]
  | .read ctlr ten len addr7 buf => [cmdWord0 3 ctlr ten len addr7, buf]
  | .probe ctlr ten addr7 buf => [cmdWord0 4 ctlr ten 0 addr7, buf]
  | .hdr1 seq ctlrId => [hdr1Word seq ctlrId P]
  | .hdr2 sizeMinus1 => [hdr2Word sizeMinus1 P]
  | .hdr3 read addr7 => [hdr3Word (addr8Of addr7 read) read P]
  | .rspOk present detail => [rspWord0 0 present, detail]
  | .rspTimeout present detail => [rspWord0 1 present, detail]
  | .rspNoAcknowledge present detail => [rspWord0 2 present, detail]
  | .rspArbitrationLost present detail => [rspWord0 3 present, detail]
  | .rspUnsupportedAddressWidth present detail => [rspWord0 4 present, detail]
  | .rspBusNotReady present detail => [rspWord0 5 present, detail]
  | .seqIdle => [0]
  | .seqCheck => [1]
  | .clrstClrRd => [2]
  | .clrstClrWr => [3]
  | .hdrHdr1 => [4]
  | .hdrHdr2 => [5]
  | .hdrHdr3 => [6]
  | .pushwWrFetch => [7]
  | .pushwWrPush => [8]
  | .waittxWrWait => [9]
  | .waitrxRdWait => [10]
  | .popwRdPop => [11]
  | .popwRdStore => [12]
  | .waitdoneDoneWait => [13]
  | .recoverRecReset => [14]
  | .recoverRecCnfg => [15]
  | .recoverRecSlRd => [16]
  | .recoverRecSlWr => [17]
  | .seqRespond => [18]

/-- `Except` to `Option`, for the host's question. -/
def decoded : Except DecodeError Instr → Option Instr
  | .ok i => some i
  | .error _ => none

/-- The first of several readings that succeeds. -/
def firstDecoded : List (Except DecodeError Instr) → Option Instr
  | [] => none
  | .ok i :: _ => some i
  | .error _ :: rest => firstDecoded rest

/-- The host's reading of a table row's bits, with every operand word above them 0. A row of at most 8 bits is a state
code. A word whose top four bits are not 0 can only be a command. The other 32-bit rows overlap one another (0 is RSP.OK,
HDR2 and HDR3): their place says which is meant, and here, where no place is given, the readings are tried in the order
response, header word 1, header word 3, header word 2 (DESIGN CHOICE, log 19). -/
def decodeTableWord (nbits w : Nat) : Option Instr :=
  if nbits ≤ 8 then decoded (decodeState w)
  else
    let c0 : Word := BitVec.ofNat 32 w
    let c1 : Word := BitVec.ofNat 32 (w / 2 ^ 32)
    if c0.extractLsb' 28 4 = 0 then
      firstDecoded [decode .rsp [c0, c1], decode .hdr1 [c0], decode .hdr3 [c0], decode .hdr2 [c0]]
    else decoded (decode .cmd [c0, c1])

end Sys2Proof
end

