-- ==== Sys2Proof/Machine/Flags.lean ====
section
/-!
DEFINITION. Every status test and every derived value the spec gives. CORE has no condition codes (10_state.md R34); these
are the fields of FIFO_STATUS and INT_STATUS it tests (20_memory.md R65, R66) and the arithmetic of 00_scope.md R8.
-/

namespace Sys2Proof.Machine

/-- `FS_TX_EMPTY`, the transmit FIFO empty-slot count (20_memory.md R65). -/
def fsTxEmpty (v : Word) (P : Params := Config.params) : Nat := (getField P.fsTxEmptyLsb P.fsTxEmptyW v).toNat

/-- `FS_RX_FULL`, the receive FIFO occupied count (20_memory.md R65). -/
def fsRxFull (v : Word) (P : Params := Config.params) : Nat := (getField P.fsRxFullLsb P.fsRxFullW v).toNat

/-- The condition WAITTX awaits: equality with `FIFO_DEPTH`, not greater-or-equal (42_poller.md R171). -/
def txReady (v : Word) (P : Params := Config.params) : Bool := decide (fsTxEmpty v P = P.fifoDepth)

/-- The condition WAITRX awaits (42_poller.md R172). -/
def rxReady (v : Word) (P : Params := Config.params) : Bool := decide (fsRxFull v P ≠ 0)

/-- `XFER_DONE` of an INT_STATUS value (20_memory.md R66). -/
def xferDone (v : Word) (P : Params := Config.params) : Bool := v.getLsbD P.isXferDoneBit

/-- `NOACK` of an INT_STATUS value (20_memory.md R66). -/
def noAck (v : Word) (P : Params := Config.params) : Bool := v.getLsbD P.isNoackBit

/-- `ARB_LOST` of an INT_STATUS value (20_memory.md R66). -/
def arbLost (v : Word) (P : Params := Config.params) : Bool := v.getLsbD P.isArbLostBit

/-- `neg32`, two's-complement negation (00_scope.md R8). -/
def neg32 (s : Word) : Word := BitVec.ofNat 32 (2 ^ 32 - s.toNat)

/-- The detail of every Timeout (30_encoding.md R113). -/
def timeoutDetail : Word := 0xFFFFFFFF

/-- `ceil4(len) = (len + 3) div 4` (00_scope.md R8). -/
def ceil4 (len : Nat) : Nat := (len + 3) / 4

/-- Is the word address on a 4-byte boundary (20_memory.md R71)? -/
def aligned4 {w : Nat} (a : BitVec w) : Bool := decide (a.toNat % 4 = 0)

/-- The final word of the payload is partial: `words = 1` and `rem != 0` (41_word_mover.md R154, R157). -/
def partialFinal (words : BitVec 11) (rem : BitVec 2) : Bool := decide (words = 1) && decide (rem ≠ 0)

/-- `stage[31 : 8*rem] <- draw()`: the pad bytes of a partial final word are those of `d` (41_word_mover.md R154). -/
def padWord (rem : BitVec 2) (w d : Word) : Word :=
  let low : Word := BitVec.ofNat 32 (2 ^ (8 * rem.toNat) - 1)
  (w &&& low) ||| (d &&& ~~~low)

end Sys2Proof.Machine
end

