-- ==== Sys2Proof/Machine/State.lean ====
section
/-!
DEFINITION. CORE's state as plain data (10_state.md R20: the list is complete), the ports it speaks through, the state
after reset, and the named reasons a step can stop. INVENTORY.md lists every field with its rule and its reset value.
-/

namespace Sys2Proof.Machine

/-- The response kinds, Table 30-3 (30_encoding.md R112): OK and the five error kinds of 60_exceptions.md R230. -/
inductive Kind where
  | ok | timeout | noAcknowledge | arbitrationLost | unsupportedAddressWidth | busNotReady
  deriving DecidableEq, Repr

/-- The 19 sequencer states, in the order of their codes 0 to 18 (10_state.md Table 10-3, R32). -/
inductive SeqState where
  | idle | check | clrRd | clrWr | hdr1 | hdr2 | hdr3 | wrFetch | wrPush | wrWait
  | rdWait | rdPop | rdStore | doneWait | recReset | recCnfg | recSlRd | recSlWr | respond
  deriving DecidableEq, Repr

/-- One entry of the controller table (10_state.md Table 10-1, R22). -/
structure Ctlr.Of (P : Params) where
  id : BitVec 4
  periphId : PeriphId P
  speedHz : BitVec 32
  pinmux : Pinmux P
  regsBase : Addr P
  ctrlBase : Addr P
  singleClk : Bool
  isDvc : Bool
  inited : Bool
  deriving DecidableEq, Repr

/-- At the default parameters. -/
abbrev Ctlr := Ctlr.Of Config.params

/-- The record the configuration port carries: the eight fields of Table 10-1 other than `inited` (10_state.md R25). -/
structure CfgRecord.Of (P : Params) where
  id : BitVec 4
  periphId : PeriphId P
  speedHz : BitVec 32
  pinmux : Pinmux P
  regsBase : Addr P
  ctrlBase : Addr P
  singleClk : Bool
  isDvc : Bool
  deriving DecidableEq, Repr

/-- At the default parameters. -/
abbrev CfgRecord := CfgRecord.Of Config.params

/-- What the host presents: a command, CMD0 of 32 bits and CMD1 of `ADDR_W` bits (30_encoding.md R100, R102), or a
configuration write (10_state.md R25). -/
inductive HostAction.Of (P : Params) where
  | command (cmd0 : Word) (cmd1 : Addr P)
  | cfgWrite (index : Nat) (rec : CfgRecord.Of P)
  deriving DecidableEq, Repr

/-- At the default parameters. -/
abbrev HostAction := HostAction.Of Config.params

/-- A port event (00_scope.md Table 00-2, R9). -/
inductive Event.Of (P : Params) where
  /-- `RR a = v` -/
  | rr (a : Addr P) (v : Word)
  /-- `RW a v` -/
  | rw (a : Addr P) (v : Word)
  /-- `MR a 1 = b` -/
  | mr1 (a : Addr P) (b : Byte)
  /-- `MR a 4 = v` -/
  | mr4 (a : Addr P) (v : Word)
  /-- `MW a 1 b` -/
  | mw1 (a : Addr P) (b : Byte)
  /-- `MW a 4 v` -/
  | mw4 (a : Addr P) (v : Word)
  /-- `PRST p` -/
  | prst (p : PeriphId P)
  /-- `DLY us` -/
  | dly (us : Nat)
  /-- `RSP kind detail present` -/
  | rsp (kind : Kind) (detail : Word) (present : Bool)
  deriving DecidableEq, Repr

/-- At the default parameters. -/
abbrev Event := Event.Of Config.params

/-- The environment a port event waits on (92_eei_decisions.md D1). -/
inductive Port where
  | register | buffer | periphReset | time | response
  deriving DecidableEq, Repr

/-- Named reasons CORE is stuck: the model has no step. -/
inductive Fault where
  /-- A port event the environment does not admit or never completes (20_memory.md R79, 43_recovery.md R195,
  44_transactions.md R211, U15). Raised by every port operation of Machine/Ops.lean. Safe. -/
  | portStuck (p : Port)
  /-- A buffer read of a byte the environment holds no value for (20_memory.md R79, 41_word_mover.md R154, log 4).
  Raised by the buffer reads of Machine/Ops.lean. Safe. -/
  | bufferUnreadable
  /-- `CT[d_c]` with `d_c >= N_CTLR` outside CHECK: the table has no such entry, and the spec gives no such run (log 16).
  Raised by `withCtlr` of Machine/Ops.lean. Safe. -/
  | noController
  /-- An advance with `words = 0`: Table 44-1 has no row for it (44_transactions.md R209, log 15).
  Raised by `advanceWord` of Machine/Ops.lean. Safe. -/
  | noTransition
  deriving DecidableEq, Repr

/-- Inputs the spec says the model refuses, and instructions without a meaning. -/
inductive Refusal where
  /-- No meaning yet: raised only by a refused arm of exec. Safe. -/
  | notModelled (mnemonic : String)
  /-- A command or a CfgWrite while `st != IDLE` (44_transactions.md R200, 10_state.md R25, U9).
  Raised by `accept` and `cfgWrite`. Safe. -/
  | busy
  /-- A reserved command encoding (30_encoding.md R104, U8). Raised by `hostAction`. Safe. -/
  | reservedEncoding
  /-- A WRITE or READ with `len` outside 1 to LEN_MAX (30_encoding.md R117, U2, U3). Raised by `acceptPayload`. Safe. -/
  | lengthOutOfDomain
  /-- A CfgWrite with `i >= N_CTLR` (10_state.md R25, U9). Raised by `cfgWrite`. Safe. -/
  | cfgIndex
  /-- A CfgWrite with `rec.id != i` (10_state.md R25, U9). Raised by `cfgWrite`. Safe. -/
  | cfgId
  /-- A register access at an address that is no multiple of 4 (20_memory.md R61, U16). Raised by `regRead` and
  `regWrite`. Safe. -/
  | misalignedRegister
  deriving DecidableEq, Repr

/-- CORE's whole state (10_state.md R20), the buffer space, the ports, and the model's own three fields, over the parameters
that size it (R36: they are no state). -/
structure State.Of (P : Params) where
  /-- The controller table (R21 to R25). -/
  ct : Vector (Ctlr.Of P) P.nCtlr
  /-- Transfer Descriptor: controller index (R26). -/
  dC : BitVec 4
  /-- Transfer Descriptor: 8-bit address (R26). -/
  dAddr8 : BitVec 8
  /-- Transfer Descriptor: buffer address (R26). -/
  dBuf : Addr P
  /-- Transfer Descriptor: payload length (R26). -/
  dLen : BitVec 13
  /-- Transfer Descriptor: direction, true for a read (R26). -/
  dRead : Bool
  /-- Transfer Descriptor: 10-bit-address flag (R26). -/
  dTen : Bool
  /-- Transfer Descriptor: the command is PROBE (R26). -/
  dProbe : Bool
  /-- Transfer Descriptor: the command is INIT (R26). -/
  dInit : Bool
  /-- Payload words not yet moved (R28). -/
  words : BitVec 11
  /-- `d_len mod 4` (R28). -/
  rem : BitVec 2
  /-- Buffer address of the current word (R28). -/
  ptr : Addr P
  /-- The staging word (R29). -/
  stage : Word
  /-- Samples of the current poll that did not end it (R30). -/
  polls : BitVec P.pollsW
  /-- Last INT_STATUS value read (R31). -/
  snap : Word
  /-- Error latch: kind (R31). -/
  errKind : Kind
  /-- Error latch: detail (R31). -/
  errDetail : Word
  /-- The sequencer state (R32). -/
  st : SeqState
  /-- The buffer space: bytes listed by address (20_memory.md R70, R72). -/
  mem : List Host.Cell
  /-- What the host presents, oldest first (44_transactions.md R212, log 1). -/
  hostIn : List (HostAction.Of P)
  /-- RSP0 and RSP1 as last delivered (30_encoding.md R111, log 1). -/
  rspPort : Option (Word × Word)
  /-- The port events performed, oldest first (00_scope.md R9, log 1). -/
  trace : List (Event.Of P)
  /-- MODEL'S OWN (log 2): the values the controller answers to the next register reads. -/
  regAnswers : List Word
  /-- MODEL'S OWN (log 3): how many free values have been drawn. -/
  draws : Nat
  /-- MODEL'S OWN (log 6): how many more port events the environment completes; none: every one. -/
  portLimit : Option Nat
  deriving DecidableEq, Repr

/-- At the default parameters. -/
abbrev State := State.Of Config.params

/-- The Transfer Descriptor of an accepted command (44_transactions.md R200, 10_state.md R26). -/
structure Descriptor.Of (P : Params) where
  c : BitVec 4
  addr8 : BitVec 8
  buf : Addr P
  len : BitVec 13
  read : Bool
  ten : Bool
  probe : Bool
  init : Bool
  deriving DecidableEq, Repr

/-- At the default parameters. -/
abbrev Descriptor := Descriptor.Of Config.params

/-- A zero-valued table entry (10_state.md R37). -/
def Ctlr.zero {P : Params} : Ctlr.Of P :=
  { id := 0, periphId := 0, speedHz := 0, pinmux := 0, regsBase := 0, ctrlBase := 0,
    singleClk := false, isDvc := false, inited := false }

/-- After power-on reset (10_state.md R37, Table 10-4): the table zero-valued, `st = IDLE`, no port event. The working
registers the spec leaves unspecified are 0 (DESIGN CHOICE, log 7); the ports are empty (log 1). -/
def State.resetOf (P : Params) : State.Of P :=
  { ct := Vector.replicate P.nCtlr Ctlr.zero
    dC := 0, dAddr8 := 0, dBuf := 0, dLen := 0
    dRead := false, dTen := false, dProbe := false, dInit := false
    words := 0, rem := 0, ptr := 0, stage := 0, polls := 0, snap := 0
    errKind := .ok, errDetail := 0, st := .idle
    mem := [], hostIn := [], rspPort := none, trace := []
    regAnswers := [], draws := 0, portLimit := none }

/-- After power-on reset, at the default parameters. -/
def State.reset : State := State.resetOf Config.params

end Sys2Proof.Machine
end

