-- ==== Sys2Proof/Machine/Operands.lean ====
section
/-!
DEFINITION. Every operand form: the register addresses of 20_memory.md Table 20-1, the header words CORE emits
(40_header_encoder.md Listing 40-1), the descriptor a command latches (44_transactions.md R200), response words and codes.
-/

namespace Sys2Proof.Machine

variable {P : Params}

/-- `TX_FIFO` of an entry (20_memory.md R62, Table 20-1); addition modulo `2^ADDR_W` (R61). -/
def txFifoAddr (c : Ctlr.Of P) : Addr P := c.ctrlBase + P.offTxFifo

/-- `RX_FIFO` of an entry. -/
def rxFifoAddr (c : Ctlr.Of P) : Addr P := c.ctrlBase + P.offRxFifo

/-- `FIFO_STATUS` of an entry. -/
def fifoStatusAddr (c : Ctlr.Of P) : Addr P := c.ctrlBase + P.offFifoStatus

/-- `INT_STATUS` of an entry. -/
def intStatusAddr (c : Ctlr.Of P) : Addr P := c.ctrlBase + P.offIntStatus

/-- `CNFG` of an entry, at the DVC offset for a DVC variant (20_memory.md R67, 43_recovery.md R192). -/
def cnfgAddr (c : Ctlr.Of P) : Addr P := c.regsBase + if c.isDvc then P.offCnfgDvc else P.offCnfg

/-- `SL_CNFG` of an entry (20_memory.md R68); only a standard controller's is ever accessed. -/
def slCnfgAddr (c : Ctlr.Of P) : Addr P := c.regsBase + P.offSlCnfg

/-- The registers of Table 20-1 of one entry, as addresses: the only ones CORE accesses (20_memory.md R69). -/
def registerMap (c : Ctlr.Of P) : List (Addr P) :=
  [txFifoAddr c, rxFifoAddr c, fifoStatusAddr c, intStatusAddr c, cnfgAddr c] ++
    if c.isDvc then [] else [slCnfgAddr c]

/-- The payload-size field of header word 2, `d_len - 1` truncated to `PAYLOAD_W` bits (30_encoding.md R108). For
`d_len = 0` the spec defines none and no run asks (40_header_encoder.md R144): the bits of the free value `d` (log 14). -/
def sizeField (len : BitVec 13) (d : Word) : BitVec 12 :=
  if len = 0 then d.setWidth 12 else BitVec.ofNat 12 (len.toNat - 1)

/-- The descriptor INIT latches (44_transactions.md R200; the fields INIT ignores are latched all the same, log 18). -/
def initDescriptor (ctlr : BitVec 4) (ten : Bool) (len : BitVec 13) (addr7 : BitVec 7) (buf : Addr P) : Descriptor.Of P :=
  { c := ctlr, addr8 := addr8Of addr7 false, buf := buf, len := len, read := false, ten := ten,
    probe := false, init := true }

/-- The descriptor WRITE latches (44_transactions.md R200, R202). -/
def writeDescriptor (ctlr : BitVec 4) (ten : Bool) (len : BitVec 13) (addr7 : BitVec 7) (buf : Addr P) :
    Descriptor.Of P :=
  { c := ctlr, addr8 := addr8Of addr7 false, buf := buf, len := len, read := false, ten := ten,
    probe := false, init := false }

/-- The descriptor READ latches (44_transactions.md R200, R203). -/
def readDescriptor (ctlr : BitVec 4) (ten : Bool) (len : BitVec 13) (addr7 : BitVec 7) (buf : Addr P) : Descriptor.Of P :=
  { c := ctlr, addr8 := addr8Of addr7 true, buf := buf, len := len, read := true, ten := ten,
    probe := false, init := false }

/-- The descriptor PROBE latches: `d_len <- 1` (44_transactions.md R200, R204). -/
def probeDescriptor (ctlr : BitVec 4) (ten : Bool) (addr7 : BitVec 7) (buf : Addr P) : Descriptor.Of P :=
  { c := ctlr, addr8 := addr8Of addr7 false, buf := buf, len := 1, read := false, ten := ten,
    probe := true, init := false }

/-- The entry a configuration write leaves: the eight fields of the record, `inited` unchanged (10_state.md R25). -/
def configured (old : Ctlr.Of P) (r : CfgRecord.Of P) : Ctlr.Of P :=
  { id := r.id, periphId := r.periphId, speedHz := r.speedHz, pinmux := r.pinmux, regsBase := r.regsBase,
    ctrlBase := r.ctrlBase, singleClk := r.singleClk, isDvc := r.isDvc, inited := old.inited }

/-- The response that stands for a kind, with its `present` and `detail` (30_encoding.md R111, R112). -/
def responseOf (k : Kind) (detail : Word) (present : Bool) : Instr :=
  match k with
  | .ok => .rspOk present detail
  | .timeout => .rspTimeout present detail
  | .noAcknowledge => .rspNoAcknowledge present detail
  | .arbitrationLost => .rspArbitrationLost present detail
  | .unsupportedAddressWidth => .rspUnsupportedAddressWidth present detail
  | .busNotReady => .rspBusNotReady present detail

/-- The code of a kind, `RSP0[2:0]` (30_encoding.md Table 30-3). -/
def Kind.code : Kind → BitVec 3
  | .ok => 0
  | .timeout => 1
  | .noAcknowledge => 2
  | .arbitrationLost => 3
  | .unsupportedAddressWidth => 4
  | .busNotReady => 5

/-- The `present` bit of a response formed in RESPOND: `d_probe and err_kind = OK` (44_transactions.md R207, Table 44-1). -/
def presentBit (probe : Bool) (k : Kind) : Bool := probe && decide (k = .ok)

/-- The micro-operation a sequencer state selects (30_encoding.md R114, 10_state.md Table 10-3). -/
def SeqState.instr : SeqState → Instr
  | .idle => .seqIdle
  | .check => .seqCheck
  | .clrRd => .clrstClrRd
  | .clrWr => .clrstClrWr
  | .hdr1 => .hdrHdr1
  | .hdr2 => .hdrHdr2
  | .hdr3 => .hdrHdr3
  | .wrFetch => .pushwWrFetch
  | .wrPush => .pushwWrPush
  | .wrWait => .waittxWrWait
  | .rdWait => .waitrxRdWait
  | .rdPop => .popwRdPop
  | .rdStore => .popwRdStore
  | .doneWait => .waitdoneDoneWait
  | .recReset => .recoverRecReset
  | .recCnfg => .recoverRecCnfg
  | .recSlRd => .recoverRecSlRd
  | .recSlWr => .recoverRecSlWr
  | .respond => .seqRespond

end Sys2Proof.Machine
end

