-- ==== Sys2Proof/Machine/Update.lean ====
section
/-!
DEFINITION. Named updates of the state, one per group of fields a rule writes together; Laws/State.lean says of each
which fields it leaves alone.
-/

namespace Sys2Proof.Machine

variable {P : Params}

/-- `st <- t`. -/
def State.Of.goto (s : State.Of P) (t : SeqState) : State.Of P := { s with st := t }

/-- `stage <- w`. -/
def State.Of.setStage (s : State.Of P) (w : Word) : State.Of P := { s with stage := w }

/-- `snap <- w`. -/
def State.Of.setSnap (s : State.Of P) (w : Word) : State.Of P := { s with snap := w }

/-- `polls <- n`. -/
def State.Of.setPolls (s : State.Of P) (n : BitVec P.pollsW) : State.Of P := { s with polls := n }

/-- `words <- n; ptr <- p`. -/
def State.Of.setCursor (s : State.Of P) (n : BitVec 11) (p : Addr P) : State.Of P := { s with words := n, ptr := p }

/-- `rem <- r`. -/
def State.Of.setRem (s : State.Of P) (r : BitVec 2) : State.Of P := { s with rem := r }

/-- `err_kind <- k; err_detail <- d`. -/
def State.Of.setErr (s : State.Of P) (k : Kind) (d : Word) : State.Of P := { s with errKind := k, errDetail := d }

/-- A new controller table. -/
def State.Of.setTable (s : State.Of P) (t : Vector (Ctlr.Of P) P.nCtlr) : State.Of P := { s with ct := t }

/-- New buffer contents. -/
def State.Of.setMem (s : State.Of P) (m : List Host.Cell) : State.Of P := { s with mem := m }

/-- One port event performed: it is the newest of the trace, and one of the environment's completions is used up. -/
def State.Of.record (s : State.Of P) (e : Event.Of P) : State.Of P :=
  { s with trace := s.trace ++ [e], portLimit := s.portLimit.map (· - 1) }

/-- The value the controller returns to the next register read: the scripted answer if there is one, else a free value
(10_state.md R35, U10, log 2). -/
def State.Of.answer (s : State.Of P) : Word := s.regAnswers.headD (Config.regValue s.draws)

/-- The next pad draw, a free value (00_scope.md Table 00-2 `draw_N`, log 3). -/
def State.Of.pad (s : State.Of P) : Word := Config.draw s.draws

/-- After a register read: one scripted answer fewer, if there was one, and one value drawn. -/
def State.Of.consume (s : State.Of P) : State.Of P := { s with regAnswers := s.regAnswers.tail, draws := s.draws + 1 }

/-- One free value drawn. -/
def State.Of.drawn (s : State.Of P) : State.Of P := { s with draws := s.draws + 1 }

/-- The words on the response port. -/
def State.Of.setRspPort (s : State.Of P) (r0 r1 : Word) : State.Of P := { s with rspPort := some (r0, r1) }

/-- What the host still presents. -/
def State.Of.setHostIn (s : State.Of P) (h : List (HostAction.Of P)) : State.Of P := { s with hostIn := h }

/-- The descriptor registers written together at acceptance. -/
def State.Of.latch (s : State.Of P) (d : Descriptor.Of P) : State.Of P :=
  { s with dC := d.c, dAddr8 := d.addr8, dBuf := d.buf, dLen := d.len, dRead := d.read, dTen := d.ten,
           dProbe := d.probe, dInit := d.init }

end Sys2Proof.Machine
end

