-- ==== Sys2Proof/Machine/Ops.lean ====
section
/-!
DEFINITION. The named operations every meaning is made of: the port primitives of 00_scope.md Table 00-2, the raise of an
error and the response that returns from it (44_transactions.md R208, 60_exceptions.md R236, R237), the loop set-up and
advance of the word mover, and the failing sample of a poll.
-/

namespace Sys2Proof.Machine

variable {P : Params}

/-- An outcome of this machine that carries an `α` when it goes on. -/
abbrev Result (α : Type) := Host.Outcome α Fault Refusal

/-- Go on with `f` where the first part goes on; stop where it stops. -/
def andThen {α β : Type} (o : Result α) (f : α → Result β) : Result β :=
  match o with
  | .next a => f a
  | .fault r => .fault r
  | .refused r => .refused r

/-- Does the environment complete `n` more port events (20_memory.md R79, log 6)? -/
def State.Of.admits (s : State.Of P) (n : Nat) : Bool :=
  match s.portLimit with
  | none => true
  | some k => decide (n ≤ k)

/-- One port event: performed and recorded, or never completed, and then CORE is stuck (00_scope.md R9, 20_memory.md R74,
R79). -/
def portEvent (p : Port) (e : Event.Of P) (s : State.Of P) : Result (State.Of P) :=
  if s.admits 1 then .next (s.record e) else .fault (.portStuck p)

/-- `RegRead(a)` (00_scope.md Table 00-2): the value is the controller's choice; a misaligned address is refused
(20_memory.md R61). -/
def regRead (a : Addr P) (s : State.Of P) : Result (Word × State.Of P) :=
  if aligned4 a then andThen (portEvent .register (.rr a s.answer) s) fun t => .next (s.answer, t.consume)
  else .refused .misalignedRegister

/-- `RegWrite(a, v)` (00_scope.md Table 00-2); a misaligned address is refused (20_memory.md R61). -/
def regWrite (a : Addr P) (v : Word) (s : State.Of P) : Result (State.Of P) :=
  if aligned4 a then portEvent .register (.rw a v) s else .refused .misalignedRegister

/-- `MemRead(a, 1)`. -/
def memRead1 (a : Addr P) (s : State.Of P) : Result (Byte × State.Of P) :=
  match memGet s.mem a.toNat with
  | some b => andThen (portEvent .buffer (.mr1 a b) s) fun t => .next (b, t)
  | none => .fault .bufferUnreadable

/-- The little-endian word of the four bytes from `a` (20_memory.md R72), if the environment holds all four. -/
def memWord {w : Nat} (m : List Host.Cell) (a : BitVec w) : Option Word :=
  match memGet m a.toNat, memGet m (a + 1).toNat, memGet m (a + 2).toNat, memGet m (a + 3).toNat with
  | some b0, some b1, some b2, some b3 => some (wordOf b0 b1 b2 b3)
  | _, _, _, _ => none

/-- `MemRead(a, 4)`, one event. -/
def memRead4 (a : Addr P) (s : State.Of P) : Result (Word × State.Of P) :=
  match memWord s.mem a with
  | some w => andThen (portEvent .buffer (.mr4 a w) s) fun t => .next (w, t)
  | none => .fault .bufferUnreadable

/-- Four one-byte reads at ascending addresses, assembled little-endian (41_word_mover.md R153). -/
def memReadBytes (a : Addr P) (s : State.Of P) : Result (Word × State.Of P) :=
  andThen (memRead1 a s) fun (b0, s0) =>
  andThen (memRead1 (a + 1) s0) fun (b1, s1) =>
  andThen (memRead1 (a + 2) s1) fun (b2, s2) =>
  andThen (memRead1 (a + 3) s2) fun (b3, s3) => .next (wordOf b0 b1 b2 b3, s3)

/-- `MemWrite(a, 1, b)`. -/
def memWrite1 (a : Addr P) (b : Byte) (s : State.Of P) : Result (State.Of P) :=
  andThen (portEvent .buffer (.mw1 a b) s) fun t => .next (t.setMem (memPut t.mem a.toNat b))

/-- The buffer after the first `n` bytes of a word are stored from `a` on, ascending, little-endian (20_memory.md R72). -/
def memPutBytes {k : Nat} (m : List Host.Cell) (a : BitVec k) (w : Word) : Nat → List Host.Cell
  | 0 => m
  | n + 1 => memPut (memPutBytes m a w n) (a + BitVec.ofNat k n).toNat (byteOf w n)

/-- `MemWrite(a, 4, v)`, one event. -/
def memWrite4 (a : Addr P) (w : Word) (s : State.Of P) : Result (State.Of P) :=
  andThen (portEvent .buffer (.mw4 a w) s) fun t => .next (t.setMem (memPutBytes t.mem a w 4))

/-- The first `n` bytes of a word as `n` one-byte writes at ascending addresses (41_word_mover.md R157, R71). -/
def memWriteBytes (a : Addr P) (w : Word) (s : State.Of P) : Nat → Result (State.Of P)
  | 0 => .next s
  | n + 1 => andThen (memWriteBytes a w s n) fun t => memWrite1 (a + BitVec.ofNat P.addrW n) (byteOf w n) t

/-- `PeriphReset(p)`: one complete reset; CORE waits for it, with no timeout (43_recovery.md R191). -/
def periphReset (p : PeriphId P) (s : State.Of P) : Result (State.Of P) := portEvent .periphReset (.prst p) s

/-- `Delay(POLL_US)`: an event and nothing else (42_poller.md R178). -/
def delay (s : State.Of P) : Result (State.Of P) := portEvent .time (.dly P.pollUs) s

/-- The table entry the command names, `CT[d_c]`. -/
def withCtlr {α : Type} (s : State.Of P) (f : Ctlr.Of P → Result α) : Result α :=
  match s.ct[s.dC.toNat]? with
  | some c => f c
  | none => .fault .noController

/-- TAKING AN ERROR, `raise K(detail)`: the latch is written and control goes to recovery (44_transactions.md R208,
60_exceptions.md R236). -/
def raiseError (k : Kind) (detail : Word) (s : State.Of P) : State.Of P := (s.setErr k detail).goto .recReset

/-- An error found in CHECK: the latch is written, `err_detail <- 0`, and the response follows without recovery
(44_transactions.md R201). -/
def refuseCommand (k : Kind) (s : State.Of P) : State.Of P := (s.setErr k 0).goto .respond

/-- RETURNING, `Respond(kind, detail, present)`: the response is delivered and `st <- IDLE` (44_transactions.md R207,
R208; 60_exceptions.md R237; words of 30_encoding.md R111). The descriptor and the other working registers, dead from
here on and unspecified in the spec (10_state.md R26; U20), keep their last values (DESIGN CHOICE, log 30). -/
def respond (k : Kind) (detail : Word) (present : Bool) (s : State.Of P) : Result (State.Of P) :=
  andThen (portEvent .response (.rsp k detail present) s) fun t =>
    .next ((t.setRspPort (rspWord0 k.code present) detail).goto .idle)

/-- Accepting a command: only in IDLE; the descriptor is latched and `st <- CHECK` (44_transactions.md R200). -/
def accept (d : Descriptor.Of P) (s : State.Of P) : Result (State.Of P) :=
  if s.st = .idle then .next ((s.latch d).goto .check) else .refused .busy

/-- Accepting a WRITE or READ: also only within the length domain (44_transactions.md R200, 30_encoding.md R117). -/
def acceptPayload (d : Descriptor.Of P) (s : State.Of P) : Result (State.Of P) :=
  if s.st = .idle then
    if lengthInDomain d.len P then accept d s else .refused .lengthOutOfDomain
  else .refused .busy

/-- One word pushed into TX_FIFO (20_memory.md R63). -/
def pushTx (w : Word) (s : State.Of P) : Result (State.Of P) :=
  withCtlr s fun c => regWrite (txFifoAddr c) w s

/-- Loop set-up at the end of header word 3: `words`, `rem`, `ptr`, and the first state of the direction
(41_word_mover.md R150, Table 44-1 rows HDR3). -/
def enterLoop (s : State.Of P) : State.Of P :=
  let t := (s.setCursor (BitVec.ofNat 11 (ceil4 s.dLen.toNat)) s.dBuf).setRem (BitVec.ofNat 2 s.dLen.toNat)
  if s.dRead then (t.setPolls 0).goto .rdWait else t.goto .wrFetch

/-- Advance after a word: `words <- words - 1; ptr <- ptr + 4`, then the completion poll or the direction's next word
(41_word_mover.md R159; Table 44-1 rows WR_WAIT and RD_STORE, which have none for `words = 0`, log 15). -/
def advanceWord (read : Bool) (s : State.Of P) : Result (State.Of P) :=
  let t := s.setCursor (s.words - 1) (s.ptr + 4)
  if s.words = 0 then .fault .noTransition
  else if s.words = 1 then .next ((t.setPolls 0).goto .doneWait)
  else if read then .next ((t.setPolls 0).goto .rdWait)
  else .next (t.goto .wrFetch)

/-- The sample after `Delay` that did not end its poll: `polls <- polls + 1`, and at `N_POLL` a Timeout is raised, else
the poll goes on (42_poller.md R170; rows "no" and "expired" of Table 44-1). -/
def countSample (again : SeqState) (s : State.Of P) : State.Of P :=
  let t := s.setPolls (s.polls + 1)
  if t.polls.toNat = P.nPoll then raiseError .timeout timeoutDetail t else t.goto again

/-- A sample that does not end its poll (42_poller.md R170). -/
def pollMiss (again : SeqState) (s : State.Of P) : Result (State.Of P) :=
  andThen (delay s) fun t => .next (countSample again t)

/-- The end of RECOVER: for INIT the entry's `inited` is set; then the response (43_recovery.md R196, rows REC_CNFG and
REC_SL_WR of Table 44-1). -/
def finishRecovery (c : Ctlr.Of P) (s : State.Of P) : State.Of P :=
  (if s.dInit then s.setTable (s.ct.setIfInBounds s.dC.toNat { c with inited := true }) else s).goto .respond

end Sys2Proof.Machine
end

