-- ==== Sys2Proof/Machine/Clrst.lean ====
section
/-!
DEFINITION. CLRST, the clearing of stale status (44_transactions.md R206): INT_STATUS is read and written back.
-/

namespace Sys2Proof.Machine

variable {P : Params}

/-- State CLR_RD: `snap <- RegRead(INT_STATUS)` (44_transactions.md R206). -/
def execClrstClrRd (s : State.Of P) : Result (State.Of P) :=
  withCtlr s fun c => andThen (regRead (intStatusAddr c) s) fun (v, t) => .next ((t.setSnap v).goto .clrWr)

/-- State CLR_WR: `RegWrite(INT_STATUS, snap)` (44_transactions.md R206). -/
def execClrstClrWr (s : State.Of P) : Result (State.Of P) :=
  withCtlr s fun c => andThen (regWrite (intStatusAddr c) s.snap s) fun t => .next (t.goto .hdr1)

end Sys2Proof.Machine
end

