-- ==== Sys2Proof/Machine/Header.lean ====
section
/-!
DEFINITION. The packet header encoder (40_header_encoder.md): the three header words as CORE emits them, and the
sequencer states HDR1, HDR2, HDR3 that form them from the registers. No register is read between the words (R141).
-/

namespace Sys2Proof.Machine

variable {P : Params}

/-- Header word 1 emitted: `RegWrite(TX_FIFO, HDR1)`, then HDR2 (40_header_encoder.md R140, 30_encoding.md R107). -/
def execHdr1 (seq : BitVec 8) (ctlrId : BitVec 4) (s : State.Of P) : Result (State.Of P) :=
  andThen (pushTx (hdr1Word seq ctlrId P) s) fun t => .next (t.goto .hdr2)

/-- Header word 2 emitted, then HDR3 (40_header_encoder.md R140, 30_encoding.md R108). -/
def execHdr2 (sizeMinus1 : BitVec 12) (s : State.Of P) : Result (State.Of P) :=
  andThen (pushTx (hdr2Word sizeMinus1 P) s) fun t => .next (t.goto .hdr3)

/-- Header word 3 emitted, then the word loop is set up (40_header_encoder.md R140, 41_word_mover.md R150). -/
def execHdr3 (read : Bool) (addr7 : BitVec 7) (s : State.Of P) : Result (State.Of P) :=
  andThen (pushTx (hdr3Word (addr8Of addr7 read) read P) s) fun t => .next (enterLoop t)

/-- State HDR1: the word of `PKT_SEQ_ID` and `CT[d_c].id` (40_header_encoder.md R140, R143, Listing 40-1). -/
def execHdrHdr1 (s : State.Of P) : Result (State.Of P) :=
  withCtlr s fun c => execHdr1 P.pktSeqId c.id s

/-- State HDR2: the word of `d_len - 1` (40_header_encoder.md R140; `d_len = 0` is not defined, R144, log 14). -/
def execHdrHdr2 (s : State.Of P) : Result (State.Of P) :=
  execHdr2 (sizeField s.dLen s.pad) (if s.dLen = 0 then s.drawn else s)

/-- State HDR3: the word of `d_addr8` and `d_read` (40_header_encoder.md R140; row HDR3 of Table 44-1). -/
def execHdrHdr3 (s : State.Of P) : Result (State.Of P) :=
  andThen (pushTx (hdr3Word s.dAddr8 s.dRead P) s) fun t => .next (enterLoop t)

end Sys2Proof.Machine
end

