-- ==== Sys2Proof/Machine/Poller.lean ====
section
/-!
DEFINITION. The three polls (42_poller.md): one visit is one sample, exactly one register read, and, where the sample
does not end the poll, one delay (R170).
-/

namespace Sys2Proof.Machine

variable {P : Params}

/-- WAITTX, state WR_WAIT (R171): ready at a transmit FIFO wholly empty; its expiry is a Timeout (41_word_mover.md R155). -/
def execWaittxWrWait (s : State.Of P) : Result (State.Of P) :=
  withCtlr s fun c => andThen (regRead (fifoStatusAddr c) s) fun (v, t) =>
    if txReady v P then advanceWord false t else pollMiss .wrWait t

/-- WAITRX, state RD_WAIT (R172): ready at a receive FIFO not empty; its expiry is a Timeout (41_word_mover.md R156). -/
def execWaitrxRdWait (s : State.Of P) : Result (State.Of P) :=
  withCtlr s fun c => andThen (regRead (fifoStatusAddr c) s) fun (v, t) =>
    if rxReady v P then .next (t.goto .rdPop) else pollMiss .rdWait t

/-- What WAITDONE makes of one snapshot: no-acknowledge first, then arbitration-lost, then transfer-complete (R173,
R174), else the poll goes on or expires. -/
def judgeSnapshot (v : Word) (s : State.Of P) : Result (State.Of P) :=
  if noAck v P then .next (raiseError .noAcknowledge (neg32 v) s)
  else if arbLost v P then .next (raiseError .arbitrationLost (neg32 v) s)
  else if xferDone v P then .next ((s.setErr .ok 0).goto .respond)
  else pollMiss .doneWait s

/-- WAITDONE, state DONE_WAIT (R173): `snap <- RegRead(INT_STATUS)`, then the tests. -/
def execWaitdoneDoneWait (s : State.Of P) : Result (State.Of P) :=
  withCtlr s fun c => andThen (regRead (intStatusAddr c) s) fun (v, t) => judgeSnapshot v (t.setSnap v)

end Sys2Proof.Machine
end

