-- ==== Sys2Proof/Machine/Recovery.lean ====
section
/-!
DEFINITION. RECOVER, the controller reset and recovery sequence (43_recovery.md R190 to R196).
-/

namespace Sys2Proof.Machine

variable {P : Params}

/-- State REC_RESET: `PeriphReset(CT[d_c].periph_id)` (R191). -/
def execRecoverRecReset (s : State.Of P) : Result (State.Of P) :=
  withCtlr s fun c => andThen (periphReset c.periphId s) fun t => .next (t.goto .recCnfg)

/-- State REC_CNFG: one whole-word write of `CNFG_PACKET_VALUE`; for a DVC variant recovery ends here (R192). -/
def execRecoverRecCnfg (s : State.Of P) : Result (State.Of P) :=
  withCtlr s fun c => andThen (regWrite (cnfgAddr c) P.cnfgPacketValue s) fun t =>
    .next (if c.isDvc then finishRecovery c t else t.goto .recSlRd)

/-- State REC_SL_RD: `stage <- RegRead(SL_CNFG)` (R193). -/
def execRecoverRecSlRd (s : State.Of P) : Result (State.Of P) :=
  withCtlr s fun c => andThen (regRead (slCnfgAddr c) s) fun (v, t) => .next ((t.setStage v).goto .recSlWr)

/-- State REC_SL_WR: `RegWrite(SL_CNFG, stage | SL_NEWSL_MASK)` (R193). -/
def execRecoverRecSlWr (s : State.Of P) : Result (State.Of P) :=
  withCtlr s fun c => andThen (regWrite (slCnfgAddr c) (s.stage ||| P.slNewslMask) s) fun t =>
    .next (finishRecovery c t)

end Sys2Proof.Machine
end

