-- ==== Sys2Proof/Machine/Response.lean ====
section
/-!
DEFINITION. The six responses as CORE delivers them (30_encoding.md R111 to R113; 44_transactions.md R207, R208).
-/

namespace Sys2Proof.Machine

variable {P : Params}

/-- OK (44_transactions.md R207). -/
def execRspOk (present : Bool) (detail : Word) (s : State.Of P) : Result (State.Of P) := respond .ok detail present s

/-- Timeout (42_poller.md R176). -/
def execRspTimeout (present : Bool) (detail : Word) (s : State.Of P) : Result (State.Of P) :=
    respond .timeout detail present s

/-- NoAcknowledge (42_poller.md R173). -/
def execRspNoAcknowledge (present : Bool) (detail : Word) (s : State.Of P) : Result (State.Of P) :=
  respond .noAcknowledge detail present s

/-- ArbitrationLost (42_poller.md R173). -/
def execRspArbitrationLost (present : Bool) (detail : Word) (s : State.Of P) : Result (State.Of P) :=
  respond .arbitrationLost detail present s

/-- UnsupportedAddressWidth (44_transactions.md R201). -/
def execRspUnsupportedAddressWidth (present : Bool) (detail : Word) (s : State.Of P) : Result (State.Of P) :=
  respond .unsupportedAddressWidth detail present s

/-- BusNotReady (44_transactions.md R201). -/
def execRspBusNotReady (present : Bool) (detail : Word) (s : State.Of P) : Result (State.Of P) :=
  respond .busNotReady detail present s

end Sys2Proof.Machine
end

