-- ==== Sys2Proof/Machine/Commands.lean ====
section
/-!
DEFINITION. The commands INIT, WRITE, READ, PROBE as CORE accepts them (44_transactions.md R200; row IDLE of Table 44-1),
and the configuration port (10_state.md R25). What a command then does is the visits of the sequencer that follow.
-/

namespace Sys2Proof.Machine

variable {P : Params}

/-- INIT (43_recovery.md R196): its acceptance (44_transactions.md R200). -/
def execInit (ctlr : BitVec 4) (ten : Bool) (len : BitVec 13) (addr7 : BitVec 7) (buf : Addr P) (s : State.Of P) :
    Result (State.Of P) :=
  accept (initDescriptor ctlr ten len addr7 buf) s

/-- WRITE (44_transactions.md R202): its acceptance (R200) within the length domain (30_encoding.md R117). -/
def execWrite (ctlr : BitVec 4) (ten : Bool) (len : BitVec 13) (addr7 : BitVec 7) (buf : Addr P) (s : State.Of P)
    : Result (State.Of P) :=
  acceptPayload (writeDescriptor ctlr ten len addr7 buf) s

/-- READ (44_transactions.md R203): its acceptance (R200) within the length domain (30_encoding.md R117). -/
def execRead (ctlr : BitVec 4) (ten : Bool) (len : BitVec 13) (addr7 : BitVec 7) (buf : Addr P) (s : State.Of P)
    : Result (State.Of P) :=
  acceptPayload (readDescriptor ctlr ten len addr7 buf) s

/-- PROBE (44_transactions.md R204): its acceptance (R200). -/
def execProbe (ctlr : BitVec 4) (ten : Bool) (addr7 : BitVec 7) (buf : Addr P) (s : State.Of P) : Result (State.Of P) :=
  accept (probeDescriptor ctlr ten addr7 buf) s

/-- `CfgWrite(i, rec)` (10_state.md R25): only in IDLE, only for an entry of the table, only with `rec.id = i`; it
performs no port event. -/
def cfgWrite (index : Nat) (r : CfgRecord.Of P) (s : State.Of P) : Result (State.Of P) :=
  if s.st = .idle then
    match s.ct[index]? with
    | some old =>
      if r.id.toNat = index then .next (s.setTable (s.ct.setIfInBounds index (configured old r)))
      else .refused .cfgId
    | none => .refused .cfgIndex
  else .refused .busy

/-- A command's two words: CMD0 decoded (30_encoding.md R101 to R104), the command accepted with CMD1 as its buffer address
(R102); a reserved encoding is refused (R104). -/
def commandWords (c0 : Word) (c1 : Addr P) (s : State.Of P) : Result (State.Of P) :=
  match decodeCmd0 c0 with
  | .ok c =>
    match c.op with
    | .init => execInit c.ctlr c.ten c.len c.addr7 c1 s
    | .write => execWrite c.ctlr c.ten c.len c.addr7 c1 s
    | .read => execRead c.ctlr c.ten c.len c.addr7 c1 s
    | .probe => execProbe c.ctlr c.ten c.addr7 c1 s
  | .error _ => .refused .reservedEncoding

/-- What the host presents, taken (44_transactions.md R212). -/
def hostAction (a : HostAction.Of P) (s : State.Of P) : Result (State.Of P) :=
  match a with
  | .command c0 c1 => commandWords c0 c1 s
  | .cfgWrite index r => cfgWrite index r s

end Sys2Proof.Machine
end

