-- ==== Sys2Proof/Machine/Sequencer.lean ====
section
/-!
DEFINITION. The sequencer's own states IDLE, CHECK and RESPOND (44_transactions.md R200, R201, R207, R208), and what
selects the visit of a step (10_state.md R32: `st` is what a program counter is in a processor).
-/

namespace Sys2Proof.Machine

variable {P : Params}

/-- The micro-operation the next step visits: the one `st` selects (30_encoding.md R114, 44_transactions.md R210). -/
def fetch (s : State.Of P) : Instr := s.st.instr

/-- State IDLE (44_transactions.md R200, R211): with nothing presented CORE waits, with no port event; what the host
presents is taken, oldest first. -/
def execSeqIdle (s : State.Of P) : Result (State.Of P) :=
  match s.hostIn with
  | [] => .next s
  | a :: rest => hostAction a (s.setHostIn rest)

/-- State CHECK (44_transactions.md R201): the four tests in their order, no port event. -/
def execSeqCheck (s : State.Of P) : Result (State.Of P) :=
  match s.ct[s.dC.toNat]? with
  | none => .next (refuseCommand .busNotReady s)
  | some c =>
    if s.dInit then .next ((s.setErr .ok 0).goto .recReset)
    else if !c.inited then .next (refuseCommand .busNotReady s)
    else if s.dTen then .next (refuseCommand .unsupportedAddressWidth s)
    else .next (s.goto .clrRd)

/-- State RESPOND (44_transactions.md R207, R208): the latched kind and detail, `present` for a PROBE that ended OK. -/
def execSeqRespond (s : State.Of P) : Result (State.Of P) :=
  respond s.errKind s.errDetail (presentBit s.dProbe s.errKind) s

end Sys2Proof.Machine
end

