-- ==== Sys2Proof/Machine/WordMover.lean ====
section
/-!
DEFINITION. The FIFO word mover: PUSHW (states WR_FETCH, WR_PUSH) and POPW (states RD_POP, RD_STORE), 41_word_mover.md.
-/

namespace Sys2Proof.Machine

variable {P : Params}

/-- The word a PUSHW takes: PROBE's zero byte under a draw (R163), the aligned path (R152) or the byte-wise path (R153). -/
def fetchWord (s : State.Of P) : Result (Word × State.Of P) :=
  if s.dProbe then .next (s.pad &&& 0xFFFFFF00, s.drawn)
  else if aligned4 s.ptr then memRead4 s.ptr s
  else memReadBytes s.ptr s

/-- `stage <- w`, the pad bytes of a partial final word a draw (R154). -/
def stageWord (w : Word) (s : State.Of P) : State.Of P :=
  if partialFinal s.words s.rem then (s.drawn.setStage (padWord s.rem w s.pad)) else s.setStage w

/-- State WR_FETCH (R152 to R154, R163). -/
def execPushwWrFetch (s : State.Of P) : Result (State.Of P) :=
  andThen (fetchWord s) fun (w, t) => .next ((stageWord w t).goto .wrPush)

/-- State WR_PUSH: `RegWrite(TX_FIFO, stage)`, and a fresh poll follows (R152, R155). -/
def execPushwWrPush (s : State.Of P) : Result (State.Of P) :=
  andThen (pushTx s.stage s) fun t => .next ((t.setPolls 0).goto .wrWait)

/-- State RD_POP: `stage <- RegRead(RX_FIFO)`, exactly one read (R156). -/
def execPopwRdPop (s : State.Of P) : Result (State.Of P) :=
  withCtlr s fun c => andThen (regRead (rxFifoAddr c) s) fun (v, t) => .next ((t.setStage v).goto .rdStore)

/-- The store of `stage`: a partial final word byte by byte, an unaligned word as four bytes, an aligned word at once
(R157, its three cases in order). -/
def storeWord (s : State.Of P) : Result (State.Of P) :=
  if partialFinal s.words s.rem then memWriteBytes s.ptr s.stage s s.rem.toNat
  else if aligned4 s.ptr then memWrite4 s.ptr s.stage s
  else memWriteBytes s.ptr s.stage s 4

/-- State RD_STORE (R157, R159). -/
def execPopwRdStore (s : State.Of P) : Result (State.Of P) := andThen (storeWord s) fun t => advanceWord true t

end Sys2Proof.Machine
end

