-- ==== Sys2Proof/Machine/Dispatch.lean ====
section
/-!
DEFINITION. One arm per row of spec/opcode_table.json, each a direct call of its meaning.
-/

namespace Sys2Proof.Machine

def exec (i : Instr) (s : State) : Host.Outcome State Fault Refusal :=
  match i with
  | .init ctlr ten len addr7 buf => Sys2Proof.Machine.execInit ctlr ten len addr7 buf s
  | .write ctlr ten len addr7 buf => Sys2Proof.Machine.execWrite ctlr ten len addr7 buf s
  | .read ctlr ten len addr7 buf => Sys2Proof.Machine.execRead ctlr ten len addr7 buf s
  | .probe ctlr ten addr7 buf => Sys2Proof.Machine.execProbe ctlr ten addr7 buf s
  | .hdr1 seq ctlrId => Sys2Proof.Machine.execHdr1 seq ctlrId s
  | .hdr2 sizeMinus1 => Sys2Proof.Machine.execHdr2 sizeMinus1 s
  | .hdr3 read addr7 => Sys2Proof.Machine.execHdr3 read addr7 s
  | .rspOk present detail => Sys2Proof.Machine.execRspOk present detail s
  | .rspTimeout present detail => Sys2Proof.Machine.execRspTimeout present detail s
  | .rspNoAcknowledge present detail => Sys2Proof.Machine.execRspNoAcknowledge present detail s
  | .rspArbitrationLost present detail => Sys2Proof.Machine.execRspArbitrationLost present detail s
  | .rspUnsupportedAddressWidth present detail => Sys2Proof.Machine.execRspUnsupportedAddressWidth present detail s
  | .rspBusNotReady present detail => Sys2Proof.Machine.execRspBusNotReady present detail s
  | .seqIdle => Sys2Proof.Machine.execSeqIdle s
  | .seqCheck => Sys2Proof.Machine.execSeqCheck s
  | .clrstClrRd => Sys2Proof.Machine.execClrstClrRd s
  | .clrstClrWr => Sys2Proof.Machine.execClrstClrWr s
  | .hdrHdr1 => Sys2Proof.Machine.execHdrHdr1 s
  | .hdrHdr2 => Sys2Proof.Machine.execHdrHdr2 s
  | .hdrHdr3 => Sys2Proof.Machine.execHdrHdr3 s
  | .pushwWrFetch => Sys2Proof.Machine.execPushwWrFetch s
  | .pushwWrPush => Sys2Proof.Machine.execPushwWrPush s
  | .waittxWrWait => Sys2Proof.Machine.execWaittxWrWait s
  | .waitrxRdWait => Sys2Proof.Machine.execWaitrxRdWait s
  | .popwRdPop => Sys2Proof.Machine.execPopwRdPop s
  | .popwRdStore => Sys2Proof.Machine.execPopwRdStore s
  | .waitdoneDoneWait => Sys2Proof.Machine.execWaitdoneDoneWait s
  | .recoverRecReset => Sys2Proof.Machine.execRecoverRecReset s
  | .recoverRecCnfg => Sys2Proof.Machine.execRecoverRecCnfg s
  | .recoverRecSlRd => Sys2Proof.Machine.execRecoverRecSlRd s
  | .recoverRecSlWr => Sys2Proof.Machine.execRecoverRecSlWr s
  | .seqRespond => Sys2Proof.Machine.execSeqRespond s

end Sys2Proof.Machine
end

