-- ==== Sys2Proof/Machine/Place.lean ====
section
/-!
DEFINITION. How one row of the opcode table comes to be what the next step runs. CORE fetches no instructions
(20_memory.md R76): a command is presented on the command port; the other rows are run or formed by a sequencer state.
-/

namespace Sys2Proof.Machine

/-- The host's next action, before what it presents already, to an idle CORE. -/
def State.Of.present (s : State) (a : HostAction) : State := (s.setHostIn (a :: s.hostIn)).goto .idle

/-- RESPOND with the latch and the probe mark of a response, so that it forms exactly that response
(`present` can be 1 only with OK, 30_encoding.md R111). -/
def State.Of.aboutToRespond (s : State) (k : Kind) (present : Bool) (detail : Word) : State :=
  { (s.setErr k detail).goto .respond with dProbe := present }

/-- At least one word to be moved: what an advance needs. -/
def State.Of.withWord (s : State) : State := if s.words = 0 then s.setCursor 1 s.ptr else s

/-- Four readable bytes at `ptr`: what a fetch needs (44_transactions.md Table 44-2). -/
def State.Of.withReadable (s : State) : State :=
  match memWord s.mem s.ptr with
  | some _ => s
  | none => s.setMem (memPutBytes s.mem s.ptr 0 4)

/-- An answer of the controller to the one sample a poll visit takes. -/
def State.Of.withAnswer (s : State) : State :=
  match s.regAnswers with
  | [] => { s with regAnswers := [0] }
  | _ :: _ => s

/-- The state whose visit runs or forms the instruction. -/
def State.Of.selecting (s : State) : Instr → State
  | .hdr1 _ ctlrId =>
    (match s.ct[s.dC.toNat]? with
      | some c => s.setTable (s.ct.setIfInBounds s.dC.toNat { c with id := ctlrId })
      | none => s).goto .hdr1
  | .hdr2 sizeMinus1 => { s.goto .hdr2 with dLen := sizeMinus1.setWidth 13 + 1 }
  | .hdr3 read addr7 => { s.goto .hdr3 with dRead := read, dAddr8 := addr8Of addr7 read }
  | .rspOk present detail => s.aboutToRespond .ok present detail
  | .rspTimeout present detail => s.aboutToRespond .timeout present detail
  | .rspNoAcknowledge present detail => s.aboutToRespond .noAcknowledge present detail
  | .rspArbitrationLost present detail => s.aboutToRespond .arbitrationLost present detail
  | .rspUnsupportedAddressWidth present detail => s.aboutToRespond .unsupportedAddressWidth present detail
  | .rspBusNotReady present detail => s.aboutToRespond .busNotReady present detail
  | .seqIdle => s.goto .idle
  | .seqCheck => s.goto .check
  | .clrstClrRd => s.goto .clrRd
  | .clrstClrWr => s.goto .clrWr
  | .hdrHdr1 => s.goto .hdr1
  | .hdrHdr2 => s.goto .hdr2
  | .hdrHdr3 => s.goto .hdr3
  | .pushwWrFetch => s.withReadable.goto .wrFetch
  | .pushwWrPush => s.goto .wrPush
  | .waittxWrWait => s.withWord.withAnswer.goto .wrWait
  | .waitrxRdWait => s.withAnswer.goto .rdWait
  | .popwRdPop => s.goto .rdPop
  | .popwRdStore => s.withWord.goto .rdStore
  | .waitdoneDoneWait => s.withAnswer.goto .doneWait
  | .recoverRecReset => s.goto .recReset
  | .recoverRecCnfg => s.goto .recCnfg
  | .recoverRecSlRd => s.goto .recSlRd
  | .recoverRecSlWr => s.goto .recSlWr
  | .seqRespond => s.goto .respond
  | .init ctlr ten len addr7 buf => s.present (.command (cmdWord0 1 ctlr ten len addr7) buf)
  | .write ctlr ten len addr7 buf => s.present (.command (cmdWord0 2 ctlr ten len addr7) buf)
  | .read ctlr ten len addr7 buf => s.present (.command (cmdWord0 3 ctlr ten len addr7) buf)
  | .probe ctlr ten addr7 buf => s.present (.command (cmdWord0 4 ctlr ten 0 addr7) buf)

/-- The row with bits `w` placed for the next step; what no row decodes to is presented on the command port as it is. -/
def placeWord (nbits w : Nat) (s : State) : State :=
  match decodeTableWord nbits w with
  | some i => s.selecting i
  | none => s.present (.command (BitVec.ofNat 32 w) (BitVec.ofNat 32 (w / 2 ^ 32)))

end Sys2Proof.Machine
end

