-- ==== Sys2Proof/Machine/Step.lean ====
section
/-!
DEFINITION. One step of CORE is one visit of the state `st` selects, one row of Table 44-1 (44_transactions.md R209,
R210). `State.withFetchWord` places one table row where the next step runs it (log 22).
-/

namespace Sys2Proof.Machine

/-- One step (44_transactions.md R210). -/
def step (s : State) : Host.Outcome State Fault Refusal := exec (fetch s) s

/-- The row with bits `w` placed so that the next step runs it: a state code selects that state; a header word or a
response is what HDR1, HDR2, HDR3 or RESPOND forms from the registers set here; anything else, a command among it, is
presented on the command port of an idle CORE, with CMD1 = the bits above 31 (log 22). -/
def State.withFetchWord (s : State) (nbits w : Nat) : State := placeWord nbits w s

end Sys2Proof.Machine
end

