-- ==== Sys2Proof/WellFormed.lean ====
section
/-!
DEFINITION. What makes an instruction well formed beyond its field widths: the length domain of WRITE and READ
(30_encoding.md R117) and the `present` and `detail` values a response may carry (30_encoding.md R111 to R113).
-/

namespace Sys2Proof

/-- Table 30-3: the detail of a protocol error is a negated snapshot with the bit of its kind set; for
ArbitrationLost the no-acknowledge bit is clear, since that bit is tested first (42_poller.md R174). -/
def noAckDetail (detail : Word) (P : Params := Config.params) : Bool := (-detail).getLsbD P.isNoackBit

def arbLostDetail (detail : Word) (P : Params := Config.params) : Bool :=
  (-detail).getLsbD P.isArbLostBit && !(-detail).getLsbD P.isNoackBit

/-- An instruction CORE may be given (commands) or may itself form (responses). -/
def Instr.WellFormed (i : Instr) (P : Params := Config.params) : Bool :=
  match i with
  | .write _ _ len _ _ => lengthInDomain len P
  | .read _ _ len _ _ => lengthInDomain len P
  | .rspOk _ detail => decide (detail = 0)
  | .rspTimeout present detail => !present && decide (detail = 0xFFFFFFFF)
  | .rspNoAcknowledge present detail => !present && noAckDetail detail P
  | .rspArbitrationLost present detail => !present && arbLostDetail detail P
  | .rspUnsupportedAddressWidth present detail => !present && decide (detail = 0)
  | .rspBusNotReady present detail => !present && decide (detail = 0)
  | .init .. | .probe .. | .hdr1 .. | .hdr2 .. | .hdr3 .. => true
  | .seqIdle | .seqCheck | .clrstClrRd | .clrstClrWr | .hdrHdr1 | .hdrHdr2 | .hdrHdr3 => true
  | .pushwWrFetch | .pushwWrPush | .waittxWrWait | .waitrxRdWait | .popwRdPop | .popwRdStore => true
  | .waitdoneDoneWait | .recoverRecReset | .recoverRecCnfg | .recoverRecSlRd | .recoverRecSlWr => true
  | .seqRespond => true

end Sys2Proof
end

