-- ==== Sys2Proof/Safety.lean ====
section
/-!
DEFINITION. What counts as a safe run of CORE, in the terms claims use: the classes of sequencer states, the invariant of
every state a run reaches, the transition table, the port events a visit may make, and how far a command is from its end.
-/

namespace Sys2Proof.Machine

/-- The transaction body, CLRST to WAITDONE (44_transactions.md R205). -/
def SeqState.inBody : SeqState → Bool
  | .clrRd | .clrWr | .hdr1 | .hdr2 | .hdr3 | .wrFetch | .wrPush | .wrWait => true
  | .rdWait | .rdPop | .rdStore | .doneWait => true
  | .idle | .check | .recReset | .recCnfg | .recSlRd | .recSlWr | .respond => false

/-- RECOVER (43_recovery.md R190). -/
def SeqState.inRecovery : SeqState → Bool
  | .recReset | .recCnfg | .recSlRd | .recSlWr => true
  | .idle | .check | .clrRd | .clrWr | .hdr1 | .hdr2 | .hdr3 | .wrFetch | .wrPush | .wrWait => false
  | .rdWait | .rdPop | .rdStore | .doneWait | .respond => false

/-- The word loop, write direction (41_word_mover.md R151). -/
def SeqState.inWriteLoop (t : SeqState) : Bool := decide (t = .wrFetch) || decide (t = .wrPush) || decide (t = .wrWait)

/-- The word loop, read direction (41_word_mover.md R151). -/
def SeqState.inReadLoop (t : SeqState) : Bool := decide (t = .rdWait) || decide (t = .rdPop) || decide (t = .rdStore)

/-- The three wait points (42_poller.md). -/
def SeqState.isPoll (t : SeqState) : Bool := decide (t = .wrWait) || decide (t = .rdWait) || decide (t = .doneWait)

/-- The kinds RECOVER runs for (43_recovery.md R198). -/
def Kind.isHardware (k : Kind) : Bool :=
  decide (k = .timeout) || decide (k = .noAcknowledge) || decide (k = .arbitrationLost)

/-- How many payload words a descriptor of `len` bytes moves (41_word_mover.md R150). -/
def payloadWords (len : BitVec 13) : Nat := ceil4 len.toNat

/-- What holds in every state a run from reset reaches. -/
structure State.Of.Inv (s : State) : Prop where
  /-- The buffer space is in its canonical form. -/
  memCanonical : memWf s.mem = true
  /-- An entry's `id` is its index once configured, 0 before (10_state.md R22, R25, R37). -/
  tableIds : ∀ i : Fin Config.params.nCtlr, s.ct[i].id = 0 ∨ s.ct[i].id.toNat = i.val
  /-- Past CHECK the index is in the table (44_transactions.md R201). -/
  ctlrInTable : s.st.inBody || s.st.inRecovery → s.dC.toNat < Config.params.nCtlr
  /-- A descriptor's length is in its domain (30_encoding.md R117). -/
  lengthOk : s.st ≠ .idle → s.dInit = false → lengthInDomain s.dLen = true
  /-- The low bit of the 8-bit address is the direction (30_encoding.md R105). -/
  directionBit : s.st ≠ .idle → s.dAddr8.getLsbD 0 = s.dRead
  /-- A PROBE is a write of one byte (44_transactions.md R204). -/
  probeShape : s.st ≠ .idle → s.dProbe = true → s.dLen = 1 ∧ s.dRead = false ∧ s.dInit = false
  /-- Only a transaction on an initialised controller, without the 10-bit flag, reaches the body (R201, R110). -/
  bodyChecked : s.st.inBody → s.dInit = false ∧ s.dTen = false ∧
    (s.ct[s.dC.toNat]?.map (·.inited)) = some true
  /-- In the loop there is a word left, and `rem` and `ptr` are those of the descriptor (41_word_mover.md R150, R159). -/
  loopCursor : s.st.inWriteLoop || s.st.inReadLoop → s.words ≠ 0 ∧ s.words.toNat ≤ payloadWords s.dLen ∧
    s.rem = BitVec.ofNat 2 s.dLen.toNat ∧
    s.ptr + BitVec.ofNat Config.params.addrW (4 * s.words.toNat) =
      s.dBuf + BitVec.ofNat Config.params.addrW (4 * payloadWords s.dLen)
  /-- The loop's direction is the descriptor's (41_word_mover.md R150). -/
  loopDirection : (s.st.inWriteLoop → s.dRead = false) ∧ (s.st.inReadLoop → s.dRead = true)
  /-- The completion poll runs with no word left (41_word_mover.md R161). -/
  wordsDone : s.st = .doneWait → s.words = 0
  /-- A poll in progress has samples left (42_poller.md R170). -/
  pollBudget : s.st.isPoll → s.polls.toNat < Config.params.nPoll
  /-- RECOVER runs for INIT, with OK latched, or for one of the three hardware kinds (43_recovery.md R194, R198). -/
  recoveryCause : s.st.inRecovery → if s.dInit then s.errKind = .ok else s.errKind.isHardware = true
  /-- What is latched is a response that Table 30-3 allows (30_encoding.md R112). -/
  latchOk : s.st.inRecovery || decide (s.st = .respond) →
    (responseOf s.errKind s.errDetail (presentBit s.dProbe s.errKind)).WellFormed = true
  /-- SL_CNFG is only reached on a standard controller (43_recovery.md R193). -/
  slCnfgStandard : s.st = .recSlRd ∨ s.st = .recSlWr → (s.ct[s.dC.toNat]?.map (·.isDvc)) = some false

/-- Table 44-1 as pairs of states: where each state may go (44_transactions.md R209). -/
def SeqState.successors : SeqState → List SeqState
  | .idle => [.idle, .check]
  | .check => [.respond, .recReset, .clrRd]
  | .clrRd => [.clrWr]
  | .clrWr => [.hdr1]
  | .hdr1 => [.hdr2]
  | .hdr2 => [.hdr3]
  | .hdr3 => [.wrFetch, .rdWait]
  | .wrFetch => [.wrPush]
  | .wrPush => [.wrWait]
  | .wrWait => [.wrFetch, .doneWait, .wrWait, .recReset]
  | .rdWait => [.rdPop, .rdWait, .recReset]
  | .rdPop => [.rdStore]
  | .rdStore => [.rdWait, .doneWait]
  | .doneWait => [.recReset, .respond, .doneWait]
  | .recReset => [.recCnfg]
  | .recCnfg => [.recSlRd, .respond]
  | .recSlRd => [.recSlWr]
  | .recSlWr => [.respond]
  | .respond => [.idle]

/-- A register event stands at an address of the list (20_memory.md R69); the other events are no register events. -/
def Event.Of.registerIn (as : List Addr) : Event → Bool
  | .rr a _ | .rw a _ => decide (a ∈ as)
  | .mr1 .. | .mr4 .. | .mw1 .. | .mw4 .. | .prst _ | .dly _ | .rsp .. => true

/-- A buffer read event. -/
def Event.Of.isBufferRead : Event → Bool
  | .mr1 .. | .mr4 .. => true
  | .rr .. | .rw .. | .mw1 .. | .mw4 .. | .prst _ | .dly _ | .rsp .. => false

/-- A buffer write event. -/
def Event.Of.isBufferWrite : Event → Bool
  | .mw1 .. | .mw4 .. => true
  | .rr .. | .rw .. | .mr1 .. | .mr4 .. | .prst _ | .dly _ | .rsp .. => false

/-- A register write event. -/
def Event.Of.isRegWrite : Event → Bool
  | .rw .. => true
  | .rr .. | .mr1 .. | .mr4 .. | .mw1 .. | .mw4 .. | .prst _ | .dly _ | .rsp .. => false

/-- The word a register write puts at `a`, if the event is one. -/
def Event.Of.written (a : Addr) : Event → Option Word
  | .rw b v => if b = a then some v else none
  | .rr .. | .mr1 .. | .mr4 .. | .mw1 .. | .mw4 .. | .prst _ | .dly _ | .rsp .. => none

/-- An entry with the three fields no rule reads blanked (10_state.md R24). -/
def Ctlr.Of.blankUnread (c : Ctlr) : Ctlr := { c with speedHz := 0, pinmux := 0, singleClk := false }

/-- The state with those fields blanked in every entry. -/
def State.Of.blankUnread (s : State) : State := { s with ct := s.ct.map Ctlr.Of.blankUnread }

/-- An outcome with its next state replaced by a view of it. -/
def viewed {α : Type} (f : State → α) : Result State → Result α
  | .next s => .next (f s)
  | .fault r => .fault r
  | .refused r => .refused r

/-- How many bytes of the payload lie in the words still to be moved (41_word_mover.md R157, R162). -/
def bytesLeft (words : Nat) (rem : BitVec 2) : Nat :=
  if rem = 0 then 4 * words else 4 * words - (4 - rem.toNat)

/-- A sample that does not end the poll of a wait point (42_poller.md R171 to R174). -/
def SeqState.sampleFails (t : SeqState) (v : Word) : Bool :=
  match t with
  | .wrWait => decide (fsTxEmpty v ≠ Config.params.fifoDepth)
  | .rdWait => decide (fsRxFull v = 0)
  | .doneWait => !noAck v && !arbLost v && !xferDone v
  | .idle | .check | .clrRd | .clrWr | .hdr1 | .hdr2 | .hdr3 | .wrFetch | .wrPush => false
  | .rdPop | .rdStore | .recReset | .recCnfg | .recSlRd | .recSlWr | .respond => false

/-- The events of a byte-wise store of `n` bytes of a word, at ascending addresses (41_word_mover.md R157). -/
def byteWrites (a : Addr) (w : Word) (n : Nat) : List Event :=
  (List.range n).map fun j => .mw1 (a + BitVec.ofNat Config.params.addrW j) (byteOf w j)

/-- The bytes of the buffer a WRITE still reads are readable (44_transactions.md Table 44-2). -/
def State.Of.SourceReadable (s : State) : Prop :=
  s.dRead = false → s.dProbe = false → s.dInit = false →
    ∀ k < 4 * payloadWords s.dLen, (memGet s.mem (s.dBuf + BitVec.ofNat Config.params.addrW k).toNat).isSome = true

/-- The bases of the entry the command names are multiples of 4 (44_transactions.md Table 44-2). -/
def State.Of.BasesAligned (s : State) : Prop :=
  ∀ c, s.ct[s.dC.toNat]? = some c → c.ctrlBase.toNat % 4 = 0 ∧ c.regsBase.toNat % 4 = 0

/-- How many visits a command may still need, at most (44_transactions.md R209, 70_reset_and_hazards.md R272): a poll up
to `N_POLL`, a word one poll and two visits more, recovery and response five. -/
def State.Of.visitsLeft (s : State) : Nat :=
  let tail := 5 + Config.params.nPoll
  let perWord := Config.params.nPoll + 2
  match s.st with
  | .idle => 0
  | .respond => 1
  | .recSlWr => 2
  | .recSlRd => 3
  | .recCnfg => 4
  | .recReset => 5
  | .doneWait => 5 + (Config.params.nPoll - s.polls.toNat)
  | .wrFetch => tail + s.words.toNat * perWord
  | .wrPush => tail + (s.words.toNat - 1) * perWord + (Config.params.nPoll + 1)
  | .wrWait => tail + (s.words.toNat - 1) * perWord + (Config.params.nPoll - s.polls.toNat)
  | .rdWait => tail + (s.words.toNat - 1) * perWord + 2 + (Config.params.nPoll - s.polls.toNat)
  | .rdPop => tail + (s.words.toNat - 1) * perWord + 2
  | .rdStore => tail + (s.words.toNat - 1) * perWord + 1
  | .hdr3 => tail + payloadWords s.dLen * perWord + 1
  | .hdr2 => tail + payloadWords s.dLen * perWord + 2
  | .hdr1 => tail + payloadWords s.dLen * perWord + 3
  | .clrWr => tail + payloadWords s.dLen * perWord + 4
  | .clrRd => tail + payloadWords s.dLen * perWord + 5
  | .check => tail + payloadWords s.dLen * perWord + 6

end Sys2Proof.Machine
end

