-- ==== Sys2Proof/Certificates/Slice0/Obligations.lean ====
section
/-!
DEFINITION. The statements for the provers, from the numbered rules of spec/. A statement `exec i s = .next { s with … }`
gives the whole next state: what it does not name is unchanged (registers, table, memory, ports), which is its frame.
-/

open Sys2Proof Sys2Proof.Machine

/-! ## Encodings -/

/-- 30_encoding.md R101 to R112, 10_state.md R32: what the encoder writes, the decoder of that place reads back, for every
row and every operand. -/
def Obligations.DecodingInvertsEncoding : Prop :=
  ∀ i : Instr, decode i.format (encode i) = .ok i

/-- 30_encoding.md R101 to R112: words that decode are the encoding of what they decode to; PROBE ignores `len`
(bits 19:7 of CMD0), and is encoded with zeros there. -/
def Obligations.EncodingInvertsDecoding : Prop :=
  ∀ (f : Format) (ws : List Word) (i : Instr), decode f ws = .ok i →
    i.format = f ∧
    ((∀ ctlr ten addr7 buf, i ≠ .probe ctlr ten addr7 buf) → encode i = ws) ∧
    (∀ ctlr ten addr7 buf, i = .probe ctlr ten addr7 buf → ∃ c0, ws = [c0, buf] ∧ encode i = [c0 &&& 0xFFF0007F, buf])

/-- 30_encoding.md R104: `op` in {0, 5 .. 15}, or any of bits 22:20 nonzero: refused, with no event and no response. -/
def Obligations.ReservedCommandsRefused : Prop :=
  ∀ (s : State) (c0 c1 : Word) (rest : List HostAction),
    s.st = .idle → s.hostIn = .command c0 c1 :: rest →
    (c0.extractLsb' 28 4 = 0 ∨ 5 ≤ (c0.extractLsb' 28 4).toNat ∨ c0.extractLsb' 20 3 ≠ 0) →
    step s = .refused .reservedEncoding

/-- 95_test_vectors.md E1, E3, E4, E6, E9, H1, H8, H14, H16, H20, A8, A9: words written out in the spec decode to what they
stand for; `0x40000050` and `0x400FFF50` are the same PROBE. -/
def Obligations.WordsOfTheSpecDecode : Prop :=
  decode .cmd [0x13000000, 0] = .ok (.init 3 false 0 0 0) ∧
  decode .cmd [0x200001D0, 0x80001000] = .ok (.write 0 false 3 0x50 0x80001000) ∧
  decode .cmd [0x30000250, 0x80002000] = .ok (.read 0 false 4 0x50 0x80002000) ∧
  decode .cmd [0x3108007F, 0] = .ok (.read 1 false 4096 0x7F 0) ∧
  decode .cmd [0x4300001C, 0] = .ok (.probe 3 false 0x1C 0) ∧
  decode .cmd [0x40000050, 0] = decode .cmd [0x400FFF50, 0] ∧
  decode .hdr1 [0x00013010] = .ok (.hdr1 1 3) ∧
  decode .hdr2 [0x00000FFF] = .ok (.hdr2 4095) ∧
  decode .hdr3 [0x000800A1] = .ok (.hdr3 true 0x50) ∧
  decode .rsp [0x00000008, 0] = .ok (.rspOk true 0) ∧
  decode .rsp [0x00000002, 0xFFFFFFF8] = .ok (.rspNoAcknowledge false 0xFFFFFFF8) ∧
  decode .useq [13] = .ok .waitdoneDoneWait

/-- 10_state.md R32: "Codes 19 to 31 are never taken." -/
def Obligations.UnusedStateCodesRejected : Prop :=
  ∀ w : Word, decode .useq [w] = .error .stateCode ↔ 19 ≤ w.toNat

/-- 30_encoding.md R107 to R109: the fields of the three header words, and zero everywhere else. -/
def Obligations.HeaderWordLayout : Prop :=
  (∀ (seq : BitVec 8) (ctlrId : BitVec 4),
    (hdr1Word seq ctlrId).extractLsb' 24 8 = 0 ∧ (hdr1Word seq ctlrId).extractLsb' 16 8 = seq ∧
    (hdr1Word seq ctlrId).extractLsb' 12 4 = ctlrId ∧ (hdr1Word seq ctlrId).extractLsb' 8 4 = 0 ∧
    (hdr1Word seq ctlrId).extractLsb' 4 4 = 1 ∧ (hdr1Word seq ctlrId).extractLsb' 0 4 = 0) ∧
  (∀ n : BitVec 12, (hdr2Word n).extractLsb' 12 20 = 0 ∧ (hdr2Word n).extractLsb' 0 12 = n) ∧
  (∀ (a : BitVec 7) (r : Bool),
    (hdr3Word (addr8Of a r) r).extractLsb' 20 12 = 0 ∧ (hdr3Word (addr8Of a r) r).getLsbD 19 = r ∧
    (hdr3Word (addr8Of a r) r).extractLsb' 8 11 = 0 ∧ (hdr3Word (addr8Of a r) r).extractLsb' 1 7 = a ∧
    (hdr3Word (addr8Of a r) r).getLsbD 0 = r)

/-- 30_encoding.md R105: `d_read` is 1 for READ and 0 for WRITE and PROBE; `d_addr8` is `(addr7 << 1) | d_read`. -/
def Obligations.AddressAssembly : Prop :=
  ∀ (s : State) (ctlr : BitVec 4) (ten : Bool) (len : BitVec 13) (addr7 : BitVec 7) (buf : Addr), s.st = .idle →
    lengthInDomain len = true →
    (∃ t, exec (.write ctlr ten len addr7 buf) s = .next t ∧ t.dRead = false ∧ t.dAddr8.toNat = 2 * addr7.toNat) ∧
    (∃ t, exec (.probe ctlr ten addr7 buf) s = .next t ∧ t.dRead = false ∧ t.dAddr8.toNat = 2 * addr7.toNat) ∧
    (∃ t, exec (.read ctlr ten len addr7 buf) s = .next t ∧ t.dRead = true ∧ t.dAddr8.toNat = 2 * addr7.toNat + 1)

/-! ## A step runs what is presented, or what `st` selects -/

/-- 44_transactions.md R210, 30_encoding.md R114: in IDLE the command or configuration write presented is taken off the
port and run; in every state the step is the visit `st` selects. -/
def Obligations.StepRunsTheDecodedInstruction : Prop :=
  ∀ s : State,
    (∀ c0 c1 rest i, s.st = .idle → s.hostIn = .command c0 c1 :: rest → decode .cmd [c0, c1] = .ok i →
      step s = exec i { s with hostIn := rest }) ∧
    (∀ index r rest, s.st = .idle → s.hostIn = .cfgWrite index r :: rest →
      step s = cfgWrite index r { s with hostIn := rest }) ∧
    (∀ i, decode .useq (encode s.st.instr) = .ok i → step s = exec i s)

/-- 40_header_encoder.md R140, 44_transactions.md Table 44-1 row RESPOND: the sequencer states HDR1, HDR2, HDR3 and RESPOND
run the header words and the response of the registers. -/
def Obligations.SequencerFormsItsWords : Prop :=
  ∀ s : State,
    (∀ c, s.st = .hdr1 → s.ct[s.dC.toNat]? = some c → step s = exec (.hdr1 Config.params.pktSeqId c.id) s) ∧
    (s.st = .hdr2 → s.dLen ≠ 0 → step s = exec (.hdr2 (BitVec.ofNat 12 (s.dLen.toNat - 1))) s) ∧
    (∀ a, s.st = .hdr3 → s.dAddr8 = addr8Of a s.dRead → step s = exec (.hdr3 s.dRead a) s) ∧
    (s.st = .respond →
      step s = exec (responseOf s.errKind s.errDetail (s.dProbe && decide (s.errKind = .ok))) s)

/-- 44_transactions.md R211, R200: in IDLE with nothing presented CORE performs no port event and changes nothing; a
WRITE presented is accepted. -/
def Obligations.IdleWaitsOrAccepts : Prop :=
  ∀ s : State,
    (s.hostIn = [] → exec .seqIdle s = .next s) ∧
    (∀ ctlr ten len addr7 buf rest, s.st = .idle → lengthInDomain len = true →
      s.hostIn = .command (cmdWord0 2 ctlr ten len addr7) buf :: rest →
      exec .seqIdle s = .next { s with
        hostIn := rest, dC := ctlr, dAddr8 := addr7 ++ 0#1, dBuf := buf, dLen := len, dRead := false, dTen := ten,
        dProbe := false, dInit := false, st := .check })

/-! ## Commands -/

/-- 44_transactions.md R200: acceptance latches the Transfer Descriptor and goes to CHECK; nothing else changes. For INIT
the ignored fields are latched all the same (log 18). -/
def Obligations.AcceptanceLatchesTheDescriptor : Prop :=
  ∀ (s : State) (ctlr : BitVec 4) (ten : Bool) (len : BitVec 13) (addr7 : BitVec 7) (buf : Addr), s.st = .idle →
    exec (.init ctlr ten len addr7 buf) s = .next { s with
      dC := ctlr, dAddr8 := addr7 ++ 0#1, dBuf := buf, dLen := len, dRead := false, dTen := ten,
      dProbe := false, dInit := true, st := .check } ∧
    (1 ≤ len.toNat → len.toNat ≤ Config.params.lenMax → exec (.write ctlr ten len addr7 buf) s = .next { s with
      dC := ctlr, dAddr8 := addr7 ++ 0#1, dBuf := buf, dLen := len, dRead := false, dTen := ten,
      dProbe := false, dInit := false, st := .check }) ∧
    (1 ≤ len.toNat → len.toNat ≤ Config.params.lenMax → exec (.read ctlr ten len addr7 buf) s = .next { s with
      dC := ctlr, dAddr8 := addr7 ++ 1#1, dBuf := buf, dLen := len, dRead := true, dTen := ten,
      dProbe := false, dInit := false, st := .check }) ∧
    exec (.probe ctlr ten addr7 buf) s = .next { s with
      dC := ctlr, dAddr8 := addr7 ++ 0#1, dBuf := buf, dLen := 1, dRead := false, dTen := ten,
      dProbe := true, dInit := false, st := .check }

/-- 44_transactions.md R200, 10_state.md R25, R33: while `st != IDLE` no command and no configuration write is accepted. -/
def Obligations.BusyCoreRefusesTheHost : Prop :=
  ∀ (s : State) (ctlr : BitVec 4) (ten : Bool) (len : BitVec 13) (addr7 : BitVec 7) (buf : Addr) (index : Nat)
    (r : CfgRecord), s.st ≠ .idle →
    exec (.init ctlr ten len addr7 buf) s = .refused .busy ∧
    exec (.write ctlr ten len addr7 buf) s = .refused .busy ∧
    exec (.read ctlr ten len addr7 buf) s = .refused .busy ∧
    exec (.probe ctlr ten addr7 buf) s = .refused .busy ∧
    cfgWrite index r s = .refused .busy

/-- 30_encoding.md R117: a WRITE or READ with `len = 0` or `len > LEN_MAX` is refused. -/
def Obligations.LengthsOutsideTheDomainRefused : Prop :=
  ∀ (s : State) (ctlr : BitVec 4) (ten : Bool) (len : BitVec 13) (addr7 : BitVec 7) (buf : Addr), s.st = .idle →
    (len = 0 ∨ Config.params.lenMax < len.toNat) →
    exec (.write ctlr ten len addr7 buf) s = .refused .lengthOutOfDomain ∧
    exec (.read ctlr ten len addr7 buf) s = .refused .lengthOutOfDomain

/-- 10_state.md R25: a configuration write writes the eight fields of its entry, leaves `inited` and every other entry,
and performs no port event. -/
def Obligations.CfgWriteWritesItsEntry : Prop :=
  ∀ (s : State) (index : Nat) (r : CfgRecord) (old : Ctlr),
    s.st = .idle → s.ct[index]? = some old → r.id.toNat = index →
    ∃ t, cfgWrite index r s = .next t ∧ t = { s with ct := t.ct } ∧
      t.ct[index]? = some {
        id := r.id, periphId := r.periphId, speedHz := r.speedHz, pinmux := r.pinmux,
        regsBase := r.regsBase, ctrlBase := r.ctrlBase, singleClk := r.singleClk, isDvc := r.isDvc,
        inited := old.inited } ∧
      ∀ j, j ≠ index → t.ct[j]? = s.ct[j]?

/-- 10_state.md R25: in IDLE a configuration write with `i >= N_CTLR` or `rec.id != i` is refused. -/
def Obligations.BadCfgWritesRefused : Prop :=
  ∀ (s : State) (index : Nat) (r : CfgRecord), s.st = .idle →
    (Config.params.nCtlr ≤ index → cfgWrite index r s = .refused .cfgIndex) ∧
    (index < Config.params.nCtlr → r.id.toNat ≠ index → cfgWrite index r s = .refused .cfgId)

/-- 44_transactions.md R201: CHECK's tests in their order; an error of CHECK goes straight to RESPOND; no port event. -/
def Obligations.CheckTestsInOrder : Prop :=
  ∀ s : State,
    (Config.params.nCtlr ≤ s.dC.toNat →
      exec .seqCheck s = .next { s with errKind := .busNotReady, errDetail := 0, st := .respond }) ∧
    ∀ c, s.ct[s.dC.toNat]? = some c →
      (s.dInit = true → exec .seqCheck s = .next { s with errKind := .ok, errDetail := 0, st := .recReset }) ∧
      (s.dInit = false → c.inited = false →
        exec .seqCheck s = .next { s with errKind := .busNotReady, errDetail := 0, st := .respond }) ∧
      (s.dInit = false → c.inited = true → s.dTen = true →
        exec .seqCheck s = .next { s with errKind := .unsupportedAddressWidth, errDetail := 0, st := .respond }) ∧
      (s.dInit = false → c.inited = true → s.dTen = false → exec .seqCheck s = .next { s with st := .clrRd })

/-! ## CLRST and the header -/

/-- 44_transactions.md R206: `snap <- RegRead(INT_STATUS)`, then `RegWrite(INT_STATUS, snap)`. -/
def Obligations.ClrstReadsAndWritesBack : Prop :=
  ∀ (s : State) (c : Ctlr), s.ct[s.dC.toNat]? = some c → c.ctrlBase.toNat % 4 = 0 → s.admits 1 = true →
    exec .clrstClrRd s = .next { s with
      snap := s.answer, st := .clrWr
      trace := s.trace ++ [.rr (c.ctrlBase + Config.params.offIntStatus) s.answer]
      portLimit := s.portLimit.map (· - 1), regAnswers := s.regAnswers.tail, draws := s.draws + 1 } ∧
    exec .clrstClrWr s = .next { s with
      st := .hdr1, trace := s.trace ++ [.rw (c.ctrlBase + Config.params.offIntStatus) s.snap]
      portLimit := s.portLimit.map (· - 1) }

/-- 40_header_encoder.md R140, R143, R144; 41_word_mover.md R150: the three header states. For `d_len = 0`, which the spec
does not define, some size is written (log 14). -/
def Obligations.HeaderStatesEmitTheirWords : Prop :=
  ∀ (s : State) (c : Ctlr), s.ct[s.dC.toNat]? = some c → c.ctrlBase.toNat % 4 = 0 → s.admits 1 = true →
    exec .hdrHdr1 s = .next { s with
      st := .hdr2, trace := s.trace ++ [.rw (c.ctrlBase + Config.params.offTxFifo) (hdr1Word Config.params.pktSeqId c.id)]
      portLimit := s.portLimit.map (· - 1) } ∧
    (s.dLen ≠ 0 → exec .hdrHdr2 s = .next { s with
      st := .hdr3
      trace := s.trace ++ [.rw (c.ctrlBase + Config.params.offTxFifo) (hdr2Word (BitVec.ofNat 12 (s.dLen.toNat - 1)))]
      portLimit := s.portLimit.map (· - 1) }) ∧
    (s.dLen = 0 → ∃ n, exec .hdrHdr2 s = .next { s with
      st := .hdr3, draws := s.draws + 1
      trace := s.trace ++ [.rw (c.ctrlBase + Config.params.offTxFifo) (hdr2Word n)]
      portLimit := s.portLimit.map (· - 1) }) ∧
    exec .hdrHdr3 s = .next { s with
      words := BitVec.ofNat 11 ((s.dLen.toNat + 3) / 4), rem := BitVec.ofNat 2 (s.dLen.toNat % 4), ptr := s.dBuf
      st := if s.dRead then .rdWait else .wrFetch
      polls := if s.dRead then 0 else s.polls
      trace := s.trace ++ [.rw (c.ctrlBase + Config.params.offTxFifo) (hdr3Word s.dAddr8 s.dRead)]
      portLimit := s.portLimit.map (· - 1) }

/-- 30_encoding.md R106, 40_header_encoder.md R140: a header word emitted is one write of it to TX_FIFO, and the next place
follows; the loop set-up after header word 3 is 41_word_mover.md R150 and row HDR3 of 44_transactions.md Table 44-1.
THE MODEL'S CHOICE (log 20): the three rows are run by themselves here, in any state and with any operands, which no
run of CORE does; and HDR3 so run takes the loop's direction from `d_read`, not from its own operand. -/
def Obligations.HeaderWordsAreEmitted : Prop :=
  ∀ (s : State) (c : Ctlr), s.ct[s.dC.toNat]? = some c → c.ctrlBase.toNat % 4 = 0 → s.admits 1 = true →
    (∀ seq ctlrId, exec (.hdr1 seq ctlrId) s = .next { s with
      st := .hdr2, trace := s.trace ++ [.rw (c.ctrlBase + Config.params.offTxFifo) (hdr1Word seq ctlrId)]
      portLimit := s.portLimit.map (· - 1) }) ∧
    (∀ n, exec (.hdr2 n) s = .next { s with
      st := .hdr3, trace := s.trace ++ [.rw (c.ctrlBase + Config.params.offTxFifo) (hdr2Word n)]
      portLimit := s.portLimit.map (· - 1) }) ∧
    (∀ read a, exec (.hdr3 read a) s = .next { s with
      words := BitVec.ofNat 11 ((s.dLen.toNat + 3) / 4), rem := BitVec.ofNat 2 (s.dLen.toNat % 4), ptr := s.dBuf
      st := if s.dRead then .rdWait else .wrFetch
      polls := if s.dRead then 0 else s.polls
      trace := s.trace ++ [.rw (c.ctrlBase + Config.params.offTxFifo) (hdr3Word (addr8Of a read) read)]
      portLimit := s.portLimit.map (· - 1) })

/-- 40_header_encoder.md R140, R142: three writes of TX_FIFO, in order, nothing between them, and the word loop follows;
no other register of CORE is written, no error is raised. -/
def Obligations.HeaderIsThreeWritesThenTheLoop : Prop :=
  ∀ (s : State) (c : Ctlr), s.st = .hdr1 → s.ct[s.dC.toNat]? = some c → c.ctrlBase.toNat % 4 = 0 →
    s.admits 3 = true → lengthInDomain s.dLen = true →
    Host.Core.run Sys2Proof.core 3 s = .next { s with
      words := BitVec.ofNat 11 ((s.dLen.toNat + 3) / 4), rem := BitVec.ofNat 2 (s.dLen.toNat % 4), ptr := s.dBuf
      st := if s.dRead then .rdWait else .wrFetch
      polls := if s.dRead then 0 else s.polls
      trace := s.trace ++ [.rw (c.ctrlBase + Config.params.offTxFifo) (hdr1Word Config.params.pktSeqId c.id),
        .rw (c.ctrlBase + Config.params.offTxFifo) (hdr2Word (BitVec.ofNat 12 (s.dLen.toNat - 1))),
        .rw (c.ctrlBase + Config.params.offTxFifo) (hdr3Word s.dAddr8 s.dRead)]
      portLimit := s.portLimit.map (· - 3) }

/-! ## The word mover -/

/-- 41_word_mover.md R152, R154: the aligned fetch, one 4-byte read, little-endian; of a partial final word only the
payload bytes are known. -/
def Obligations.AlignedFetch : Prop :=
  ∀ (s : State) (b0 b1 b2 b3 : Byte), s.dProbe = false → s.ptr.toNat % 4 = 0 → s.admits 1 = true →
    memGet s.mem s.ptr.toNat = some b0 → memGet s.mem (s.ptr + 1).toNat = some b1 →
    memGet s.mem (s.ptr + 2).toNat = some b2 → memGet s.mem (s.ptr + 3).toNat = some b3 →
    ∃ t, exec .pushwWrFetch s = .next t ∧
      t = { s with
        st := .wrPush, trace := s.trace ++ [.mr4 s.ptr (b3 ++ b2 ++ b1 ++ b0)]
        portLimit := s.portLimit.map (· - 1), stage := t.stage, draws := t.draws } ∧
      (¬(s.words = 1 ∧ s.rem ≠ 0) → t.stage = b3 ++ b2 ++ b1 ++ b0 ∧ t.draws = s.draws) ∧
      (s.words = 1 → s.rem ≠ 0 → ∀ j < s.rem.toNat,
        t.stage.extractLsb' (8 * j) 8 = (b3 ++ b2 ++ b1 ++ b0 : Word).extractLsb' (8 * j) 8)

/-- 41_word_mover.md R153, R154: the byte-wise fetch, four 1-byte reads at ascending addresses. -/
def Obligations.ByteWiseFetch : Prop :=
  ∀ (s : State) (b0 b1 b2 b3 : Byte), s.dProbe = false → s.ptr.toNat % 4 ≠ 0 → s.admits 4 = true →
    memGet s.mem s.ptr.toNat = some b0 → memGet s.mem (s.ptr + 1).toNat = some b1 →
    memGet s.mem (s.ptr + 2).toNat = some b2 → memGet s.mem (s.ptr + 3).toNat = some b3 →
    ∃ t, exec .pushwWrFetch s = .next t ∧
      t = { s with
        st := .wrPush
        trace := s.trace ++ [.mr1 s.ptr b0, .mr1 (s.ptr + 1) b1, .mr1 (s.ptr + 2) b2, .mr1 (s.ptr + 3) b3]
        portLimit := s.portLimit.map (· - 4), stage := t.stage, draws := t.draws } ∧
      (¬(s.words = 1 ∧ s.rem ≠ 0) → t.stage = b3 ++ b2 ++ b1 ++ b0 ∧ t.draws = s.draws) ∧
      (s.words = 1 → s.rem ≠ 0 → ∀ j < s.rem.toNat,
        t.stage.extractLsb' (8 * j) 8 = (b3 ++ b2 ++ b1 ++ b0 : Word).extractLsb' (8 * j) 8)

/-- 41_word_mover.md R153: the word written is the same as the aligned path would give for the same four bytes: every word
but a partial final one, whose pad bytes are draws (R154); of that one, the payload bytes are the same. -/
def Obligations.BothFetchPathsGiveTheSameWord : Prop :=
  ∀ s s' t t' : State, s.dProbe = false → s'.dProbe = false →
    s.ptr.toNat % 4 = 0 → s'.ptr.toNat % 4 ≠ 0 →
    (∀ j < 4, memGet s.mem (s.ptr + BitVec.ofNat Config.params.addrW j).toNat =
      memGet s'.mem (s'.ptr + BitVec.ofNat Config.params.addrW j).toNat) →
    exec .pushwWrFetch s = .next t → exec .pushwWrFetch s' = .next t' →
    (¬(s.words = 1 ∧ s.rem ≠ 0) → ¬(s'.words = 1 ∧ s'.rem ≠ 0) → t.stage = t'.stage) ∧
    (s.words = 1 → s'.words = 1 → s.rem ≠ 0 → s'.rem = s.rem → ∀ j < s.rem.toNat,
      t.stage.extractLsb' (8 * j) 8 = t'.stage.extractLsb' (8 * j) 8)

/-- 41_word_mover.md R163, 44_transactions.md R204: PROBE's payload byte is an internal zero; no buffer event. -/
def Obligations.ProbeFetchIsAnInternalZero : Prop :=
  ∀ s : State, s.dProbe = true →
    ∃ t, exec .pushwWrFetch s = .next t ∧
      t = { s with st := .wrPush, stage := t.stage, draws := t.draws } ∧ t.stage.extractLsb' 0 8 = 0

/-- 41_word_mover.md R152, R155: the push, one write of `stage` to TX_FIFO; a fresh WAITTX follows. -/
def Obligations.PushWritesTheStagingWord : Prop :=
  ∀ (s : State) (c : Ctlr), s.ct[s.dC.toNat]? = some c → c.ctrlBase.toNat % 4 = 0 → s.admits 1 = true →
    exec .pushwWrPush s = .next { s with
      st := .wrWait, polls := 0, trace := s.trace ++ [.rw (c.ctrlBase + Config.params.offTxFifo) s.stage]
      portLimit := s.portLimit.map (· - 1) }

/-- 41_word_mover.md R156: exactly one read of RX_FIFO, into the staging word. -/
def Obligations.PopReadsOneWord : Prop :=
  ∀ (s : State) (c : Ctlr), s.ct[s.dC.toNat]? = some c → c.ctrlBase.toNat % 4 = 0 → s.admits 1 = true →
    exec .popwRdPop s = .next { s with
      st := .rdStore, stage := s.answer
      trace := s.trace ++ [.rr (c.ctrlBase + Config.params.offRxFifo) s.answer]
      portLimit := s.portLimit.map (· - 1), regAnswers := s.regAnswers.tail, draws := s.draws + 1 }

/-- 41_word_mover.md R157, R159: the three cases of the store in their order, then the advance. `n` bytes of `stage` are
stored from `ptr` on, every other byte of the buffer space is unchanged; a partial final word's bytes end with the
payload, at `d_buf + d_len`. -/
def Obligations.StoreThenAdvance : Prop :=
  ∀ (s : State) (n : Nat) (es : List Event), s.words ≠ 0 → s.admits es.length = true →
    ((s.words = 1 ∧ s.rem ≠ 0 ∧ n = s.rem.toNat ∧ es = byteWrites s.ptr s.stage n) ∨
     (¬(s.words = 1 ∧ s.rem ≠ 0) ∧ s.ptr.toNat % 4 ≠ 0 ∧ n = 4 ∧ es = byteWrites s.ptr s.stage 4) ∨
     (¬(s.words = 1 ∧ s.rem ≠ 0) ∧ s.ptr.toNat % 4 = 0 ∧ n = 4 ∧ es = [.mw4 s.ptr s.stage])) →
    ∃ t, exec .popwRdStore s = .next t ∧
      t = { s with
        words := s.words - 1, ptr := s.ptr + 4, polls := 0, st := if s.words = 1 then .doneWait else .rdWait
        trace := s.trace ++ es, portLimit := s.portLimit.map (· - es.length), mem := t.mem } ∧
      (∀ j < n, memGet t.mem (s.ptr + BitVec.ofNat Config.params.addrW j).toNat = some (s.stage.extractLsb' (8 * j) 8)) ∧
      (∀ a, (∀ j < n, a ≠ (s.ptr + BitVec.ofNat Config.params.addrW j).toNat) → memGet t.mem a = memGet s.mem a) ∧
      (s.Inv → s.st = .rdStore → s.words = 1 → s.rem ≠ 0 →
        s.ptr + BitVec.ofNat Config.params.addrW n = s.dBuf + BitVec.ofNat Config.params.addrW s.dLen.toNat)

/-- 20_memory.md R73: a word fetched by a WRITE and delivered back, pad bytes apart, is stored by a READ as the same
bytes, whatever the alignment of either buffer. -/
def Obligations.RoundTripOfAWord : Prop :=
  ∀ (s t u v : State) (n : Nat), s.dProbe = false →
    n = (if s.words = 1 ∧ s.rem ≠ 0 then s.rem.toNat else 4) →
    exec .pushwWrFetch s = .next t → exec .popwRdStore u = .next v →
    u.words = s.words → u.rem = s.rem →
    (∀ j < n, u.stage.extractLsb' (8 * j) 8 = t.stage.extractLsb' (8 * j) 8) →
    ∀ j < n, memGet v.mem (u.ptr + BitVec.ofNat Config.params.addrW j).toNat =
      memGet s.mem (s.ptr + BitVec.ofNat Config.params.addrW j).toNat

/-- 20_memory.md R72: little-endian. A word stored at `a` reads back as itself, and its byte `j` is the one at `a + j`. -/
def Obligations.WordsAreLittleEndian : Prop :=
  ∀ (m : List Host.Cell) (a : Addr) (w : Word),
    memWord (memPutBytes m a w 4) a = some w ∧
    ∀ j < 4, memGet (memPutBytes m a w 4) (a + BitVec.ofNat Config.params.addrW j).toNat = some (w.extractLsb' (8 * j) 8)

/-! ## The polls -/

/-- 42_poller.md R170, R171; 41_word_mover.md R155, R159: one sample of WAITTX; rows WR_WAIT of Table 44-1. That the sample
that expires is counted in `polls` too is the model's reading of R170 (log 17). -/
def Obligations.WaitTxSample : Prop :=
  ∀ (s r : State) (c : Ctlr), s.ct[s.dC.toNat]? = some c → c.ctrlBase.toNat % 4 = 0 →
    r = { s with
      trace := s.trace ++ [.rr (c.ctrlBase + Config.params.offFifoStatus) s.answer]
      portLimit := s.portLimit.map (· - 1), regAnswers := s.regAnswers.tail, draws := s.draws + 1 } →
    ((s.answer.extractLsb' Config.params.fsTxEmptyLsb Config.params.fsTxEmptyW).toNat = Config.params.fifoDepth →
      s.admits 1 = true →
      (1 < s.words.toNat → exec .waittxWrWait s = .next { r with
        words := s.words - 1, ptr := s.ptr + 4, st := .wrFetch }) ∧
      (s.words = 1 → exec .waittxWrWait s = .next { r with
        words := 0, ptr := s.ptr + 4, polls := 0, st := .doneWait })) ∧
    ((s.answer.extractLsb' Config.params.fsTxEmptyLsb Config.params.fsTxEmptyW).toNat ≠ Config.params.fifoDepth →
      s.admits 2 = true →
      (s.polls.toNat + 1 < Config.params.nPoll → exec .waittxWrWait s = .next { r with
        polls := s.polls + 1, st := .wrWait
        trace := r.trace ++ [.dly Config.params.pollUs], portLimit := s.portLimit.map (· - 2) }) ∧
      (s.polls.toNat + 1 = Config.params.nPoll → exec .waittxWrWait s = .next { r with
        polls := s.polls + 1, errKind := .timeout, errDetail := 0xFFFFFFFF, st := .recReset
        trace := r.trace ++ [.dly Config.params.pollUs], portLimit := s.portLimit.map (· - 2) }))

/-- 42_poller.md R170, R172; 41_word_mover.md R156: one sample of WAITRX; rows RD_WAIT of Table 44-1. That the sample that
expires is counted in `polls` too is the model's reading of R170 (log 17). -/
def Obligations.WaitRxSample : Prop :=
  ∀ (s r : State) (c : Ctlr), s.ct[s.dC.toNat]? = some c → c.ctrlBase.toNat % 4 = 0 →
    r = { s with
      trace := s.trace ++ [.rr (c.ctrlBase + Config.params.offFifoStatus) s.answer]
      portLimit := s.portLimit.map (· - 1), regAnswers := s.regAnswers.tail, draws := s.draws + 1 } →
    (s.answer.extractLsb' Config.params.fsRxFullLsb Config.params.fsRxFullW ≠ 0 → s.admits 1 = true →
      exec .waitrxRdWait s = .next { r with st := .rdPop }) ∧
    (s.answer.extractLsb' Config.params.fsRxFullLsb Config.params.fsRxFullW = 0 → s.admits 2 = true →
      (s.polls.toNat + 1 < Config.params.nPoll → exec .waitrxRdWait s = .next { r with
        polls := s.polls + 1, st := .rdWait
        trace := r.trace ++ [.dly Config.params.pollUs], portLimit := s.portLimit.map (· - 2) }) ∧
      (s.polls.toNat + 1 = Config.params.nPoll → exec .waitrxRdWait s = .next { r with
        polls := s.polls + 1, errKind := .timeout, errDetail := 0xFFFFFFFF, st := .recReset
        trace := r.trace ++ [.dly Config.params.pollUs], portLimit := s.portLimit.map (· - 2) }))

/-- 42_poller.md R170, R173, R174: one sample of WAITDONE: no-acknowledge, then arbitration-lost, then transfer-complete;
rows DONE_WAIT of Table 44-1. That the sample that expires is counted in `polls` too is the model's reading of R170
(log 17). -/
def Obligations.WaitDoneSample : Prop :=
  ∀ (s r : State) (c : Ctlr) (v : Word), s.ct[s.dC.toNat]? = some c → c.ctrlBase.toNat % 4 = 0 → v = s.answer →
    r = { s with
      snap := v, trace := s.trace ++ [.rr (c.ctrlBase + Config.params.offIntStatus) v]
      portLimit := s.portLimit.map (· - 1), regAnswers := s.regAnswers.tail, draws := s.draws + 1 } →
    (s.admits 1 = true →
      (v.getLsbD Config.params.isNoackBit = true → exec .waitdoneDoneWait s = .next { r with
        errKind := .noAcknowledge, errDetail := -v, st := .recReset }) ∧
      (v.getLsbD Config.params.isNoackBit = false → v.getLsbD Config.params.isArbLostBit = true →
        exec .waitdoneDoneWait s = .next { r with
          errKind := .arbitrationLost, errDetail := -v, st := .recReset }) ∧
      (v.getLsbD Config.params.isNoackBit = false → v.getLsbD Config.params.isArbLostBit = false →
        v.getLsbD Config.params.isXferDoneBit = true → exec .waitdoneDoneWait s = .next { r with
          errKind := .ok, errDetail := 0, st := .respond })) ∧
    (s.admits 2 = true → v.getLsbD Config.params.isNoackBit = false → v.getLsbD Config.params.isArbLostBit = false →
      v.getLsbD Config.params.isXferDoneBit = false →
      (s.polls.toNat + 1 < Config.params.nPoll → exec .waitdoneDoneWait s = .next { r with
        polls := s.polls + 1, st := .doneWait
        trace := r.trace ++ [.dly Config.params.pollUs], portLimit := s.portLimit.map (· - 2) }) ∧
      (s.polls.toNat + 1 = Config.params.nPoll → exec .waitdoneDoneWait s = .next { r with
        polls := s.polls + 1, errKind := .timeout, errDetail := 0xFFFFFFFF, st := .recReset
        trace := r.trace ++ [.dly Config.params.pollUs], portLimit := s.portLimit.map (· - 2) }))

/-- 42_poller.md R170: a poll none of whose samples meets its condition waits through `N_POLL` samples, each one register
read and one delay, and then, not before and not after, raises Timeout. -/
def Obligations.PollExpiresAfterItsBudget : Prop :=
  ∀ (s : State) (c : Ctlr), s.ct[s.dC.toNat]? = some c → c.ctrlBase.toNat % 4 = 0 → s.portLimit = none →
    s.polls = 0 → s.st.isPoll = true → (∀ v ∈ s.regAnswers, s.st.sampleFails v = true) →
    Config.params.nPoll ≤ s.regAnswers.length →
    (∀ k < Config.params.nPoll, ∃ t, Host.Core.run Sys2Proof.core k s = .next t ∧ t.st = s.st ∧ t.polls.toNat = k ∧
      t.trace.length = s.trace.length + 2 * k ∧ t.errKind = s.errKind) ∧
    ∃ t, Host.Core.run Sys2Proof.core Config.params.nPoll s = .next t ∧ t.st = .recReset ∧ t.errKind = .timeout ∧
      t.errDetail = 0xFFFFFFFF ∧ t.trace.length = s.trace.length + 2 * Config.params.nPoll ∧ t.mem = s.mem

/-! ## Whole loops -/

/-- 41_word_mover.md R151, R157, R162: the read loop, every poll ready at once: `words` words are popped and the bytes
still due are stored, the k-th word's at `ptr + 4k`, and no other byte is touched. -/
def Obligations.ReadLoopStoresThePayload : Prop :=
  ∀ (s : State) (c : Ctlr) (ps : List (Word × Word)) (rest : List Word),
    s.st = .rdWait → s.ct[s.dC.toNat]? = some c → c.ctrlBase.toNat % 4 = 0 → s.portLimit = none →
    s.words ≠ 0 → ps.length = s.words.toNat → (∀ p ∈ ps, rxReady p.1 = true) →
    s.regAnswers = ps.flatMap (fun p => [p.1, p.2]) ++ rest →
    ∃ t, Host.Core.run Sys2Proof.core (3 * ps.length) s = .next t ∧ t.st = .doneWait ∧ t.words = 0 ∧
      t.regAnswers = rest ∧
      (∀ k p, ps[k]? = some p → ∀ j < 4, 4 * k + j < bytesLeft ps.length s.rem →
        memGet t.mem (s.ptr + BitVec.ofNat Config.params.addrW (4 * k + j)).toNat = some (p.2.extractLsb' (8 * j) 8)) ∧
      (∀ a, (∀ k < bytesLeft ps.length s.rem, a ≠ (s.ptr + BitVec.ofNat Config.params.addrW k).toNat) →
        memGet t.mem a = memGet s.mem a)

/-- 41_word_mover.md R151, R162: the write loop, every poll ready at once: exactly `words` words are pushed to TX_FIFO,
the k-th carrying the bytes at `ptr + 4k`, pad bytes apart, and the buffer space is unchanged. -/
def Obligations.WriteLoopPushesThePayload : Prop :=
  ∀ (s : State) (c : Ctlr) (vs rest : List Word),
    s.st = .wrFetch → s.ct[s.dC.toNat]? = some c → c.ctrlBase.toNat % 4 = 0 → s.portLimit = none →
    s.dProbe = false → s.words ≠ 0 → vs.length = s.words.toNat → (∀ v ∈ vs, txReady v = true) →
    (∀ k < 4 * s.words.toNat, (memGet s.mem (s.ptr + BitVec.ofNat Config.params.addrW k).toNat).isSome = true) →
    s.regAnswers = vs ++ rest →
    ∃ t es, Host.Core.run Sys2Proof.core (3 * vs.length) s = .next t ∧ t.st = .doneWait ∧ t.words = 0 ∧
      t.regAnswers = rest ∧ t.mem = s.mem ∧ t.trace = s.trace ++ es ∧
      (es.filterMap (Event.Of.written (c.ctrlBase + Config.params.offTxFifo))).length = s.words.toNat ∧
      ∀ k w, (es.filterMap (Event.Of.written (c.ctrlBase + Config.params.offTxFifo)))[k]? = some w →
        ∀ j < 4, 4 * k + j < bytesLeft s.words.toNat s.rem →
          memGet s.mem (s.ptr + BitVec.ofNat Config.params.addrW (4 * k + j)).toNat = some (w.extractLsb' (8 * j) 8)

/-! ## Errors, recovery, response -/

/-- 43_recovery.md R191, R192, R193, R196: the four visits of RECOVER; `inited` is set at its end for INIT only. R193 gives
the two SL_CNFG visits for a standard controller and says they do not occur for a DVC variant; that their meanings, run in
any other state, do the same there is the model's choice (log 21). -/
def Obligations.RecoveryVisits : Prop :=
  ∀ (s : State) (c : Ctlr), s.ct[s.dC.toNat]? = some c → c.regsBase.toNat % 4 = 0 → s.admits 1 = true →
    exec .recoverRecReset s = .next { s with
      st := .recCnfg, trace := s.trace ++ [.prst c.periphId], portLimit := s.portLimit.map (· - 1) } ∧
    (c.isDvc = false → exec .recoverRecCnfg s = .next { s with
      st := .recSlRd, trace := s.trace ++ [.rw (c.regsBase + Config.params.offCnfg) Config.params.cnfgPacketValue]
      portLimit := s.portLimit.map (· - 1) }) ∧
    (c.isDvc = true → exec .recoverRecCnfg s = .next { s with
      st := .respond, trace := s.trace ++ [.rw (c.regsBase + Config.params.offCnfgDvc) Config.params.cnfgPacketValue]
      portLimit := s.portLimit.map (· - 1)
      ct := if s.dInit then s.ct.setIfInBounds s.dC.toNat { c with inited := true } else s.ct }) ∧
    exec .recoverRecSlRd s = .next { s with
      st := .recSlWr, stage := s.answer
      trace := s.trace ++ [.rr (c.regsBase + Config.params.offSlCnfg) s.answer]
      portLimit := s.portLimit.map (· - 1), regAnswers := s.regAnswers.tail, draws := s.draws + 1 } ∧
    exec .recoverRecSlWr s = .next { s with
      st := .respond
      trace := s.trace ++ [.rw (c.regsBase + Config.params.offSlCnfg) (s.stage ||| Config.params.slNewslMask)]
      portLimit := s.portLimit.map (· - 1)
      ct := if s.dInit then s.ct.setIfInBounds s.dC.toNat { c with inited := true } else s.ct }

/-- 43_recovery.md R190, R194, R196; 44_transactions.md R208: from REC_RESET the whole of RECOVER and then the response
with the kind and detail latched before it; INIT leaves the entry initialised, an error leaves the table alone. That the
latch and `stage` hold their values in IDLE, after the response, is the model's choice (log 30). -/
def Obligations.RecoveryThenTheOriginalError : Prop :=
  ∀ (s : State) (c : Ctlr), s.st = .recReset → s.ct[s.dC.toNat]? = some c → c.regsBase.toNat % 4 = 0 →
    (c.isDvc = false → s.admits 5 = true →
      ∃ t, Host.Core.run Sys2Proof.core 5 s = .next t ∧ t.st = .idle ∧
        t.trace = s.trace ++ [.prst c.periphId, .rw (c.regsBase + Config.params.offCnfg) Config.params.cnfgPacketValue,
          .rr (c.regsBase + Config.params.offSlCnfg) s.answer,
          .rw (c.regsBase + Config.params.offSlCnfg) (s.answer ||| Config.params.slNewslMask),
          .rsp s.errKind s.errDetail (s.dProbe && decide (s.errKind = .ok))] ∧
        t.errKind = s.errKind ∧ t.errDetail = s.errDetail ∧ t.mem = s.mem ∧
        (s.dInit = true → t.ct[s.dC.toNat]? = some { c with inited := true }) ∧
        (s.dInit = false → t.ct = s.ct)) ∧
    (c.isDvc = true → s.admits 3 = true →
      ∃ t, Host.Core.run Sys2Proof.core 3 s = .next t ∧ t.st = .idle ∧
        t.trace = s.trace ++ [.prst c.periphId, .rw (c.regsBase + Config.params.offCnfgDvc) Config.params.cnfgPacketValue,
          .rsp s.errKind s.errDetail (s.dProbe && decide (s.errKind = .ok))] ∧
        t.errKind = s.errKind ∧ t.errDetail = s.errDetail ∧ t.mem = s.mem ∧ t.stage = s.stage ∧
        (s.dInit = true → t.ct[s.dC.toNat]? = some { c with inited := true }) ∧
        (s.dInit = false → t.ct = s.ct))

/-- 44_transactions.md R207, R208; 30_encoding.md R111: RESPOND delivers the latched kind and detail, `present` exactly for
a PROBE that ended OK, and CORE is idle. That every working register keeps its value after the response is the model's
choice (log 30), that the port keeps the words is log 27. -/
def Obligations.RespondDeliversTheLatch : Prop :=
  ∀ s : State, s.admits 1 = true →
    exec .seqRespond s = .next { s with
      st := .idle
      trace := s.trace ++ [.rsp s.errKind s.errDetail (s.dProbe && decide (s.errKind = .ok))]
      portLimit := s.portLimit.map (· - 1)
      rspPort := some (0#28 ++ BitVec.ofBool (s.dProbe && decide (s.errKind = .ok)) ++ s.errKind.code, s.errDetail) }

/-- 30_encoding.md R111, R112: the six responses, `RSP0[2:0]` the kind's code, `RSP0[3]` present, `RSP1` the detail.
That the working registers keep their values after it is the model's choice (log 30); so are a response row by itself (log
20) and its free operands (log 28). -/
def Obligations.ResponsesAreDelivered : Prop :=
  ∀ (s : State) (p : Bool) (d : Word), s.admits 1 = true →
    exec (.rspOk p d) s = .next { s with
      st := .idle, trace := s.trace ++ [.rsp .ok d p], portLimit := s.portLimit.map (· - 1)
      rspPort := some (0#28 ++ BitVec.ofBool p ++ 0#3, d) } ∧
    exec (.rspTimeout p d) s = .next { s with
      st := .idle, trace := s.trace ++ [.rsp .timeout d p], portLimit := s.portLimit.map (· - 1)
      rspPort := some (0#28 ++ BitVec.ofBool p ++ 1#3, d) } ∧
    exec (.rspNoAcknowledge p d) s = .next { s with
      st := .idle, trace := s.trace ++ [.rsp .noAcknowledge d p], portLimit := s.portLimit.map (· - 1)
      rspPort := some (0#28 ++ BitVec.ofBool p ++ 2#3, d) } ∧
    exec (.rspArbitrationLost p d) s = .next { s with
      st := .idle, trace := s.trace ++ [.rsp .arbitrationLost d p], portLimit := s.portLimit.map (· - 1)
      rspPort := some (0#28 ++ BitVec.ofBool p ++ 3#3, d) } ∧
    exec (.rspUnsupportedAddressWidth p d) s = .next { s with
      st := .idle, trace := s.trace ++ [.rsp .unsupportedAddressWidth d p], portLimit := s.portLimit.map (· - 1)
      rspPort := some (0#28 ++ BitVec.ofBool p ++ 4#3, d) } ∧
    exec (.rspBusNotReady p d) s = .next { s with
      st := .idle, trace := s.trace ++ [.rsp .busNotReady d p], portLimit := s.portLimit.map (· - 1)
      rspPort := some (0#28 ++ BitVec.ofBool p ++ 5#3, d) }

/-- 44_transactions.md R207: when WAITDONE succeeds, OK and 0 are latched, and the response OK with detail 0 follows at once,
`present` for a PROBE only, with no recovery, and CORE is idle. -/
def Obligations.SuccessIsDelivered : Prop :=
  ∀ (s : State) (c : Ctlr), s.st = .doneWait → s.ct[s.dC.toNat]? = some c → c.ctrlBase.toNat % 4 = 0 →
    s.admits 2 = true → noAck s.answer = false → arbLost s.answer = false → xferDone s.answer = true →
    ∃ u t, step s = .next u ∧ u.st = .respond ∧ u.errKind = .ok ∧ u.errDetail = 0 ∧
      step u = .next t ∧ t.st = .idle ∧
      t.trace = s.trace ++ [.rr (c.ctrlBase + Config.params.offIntStatus) s.answer, .rsp .ok 0 s.dProbe]

/-- 70_reset_and_hazards.md R261: after reset no controller is initialised, and a WRITE, READ or PROBE to an index that is
not initialised (or not in the table) is answered BusNotReady, with no other port event. -/
def Obligations.UninitialisedControllersAnswerBusNotReady : Prop :=
  (∀ (i : Nat) (c : Ctlr), State.reset.ct[i]? = some c → c.inited = false) ∧
  ∀ (s : State) (ctlr : BitVec 4) (ten : Bool) (len : BitVec 13) (addr7 : BitVec 7) (buf : Addr) (i : Instr),
    s.st = .idle → s.admits 1 = true → lengthInDomain len = true →
    (∀ c, s.ct[ctlr.toNat]? = some c → c.inited = false) →
    i ∈ [Instr.write ctlr ten len addr7 buf, .read ctlr ten len addr7 buf, .probe ctlr ten addr7 buf] →
    ∃ t u, exec i s = .next t ∧ Host.Core.run Sys2Proof.core 2 t = .next u ∧ u.st = .idle ∧
      u.trace = s.trace ++ [.rsp .busNotReady 0 false] ∧ u.ct = s.ct ∧ u.mem = s.mem

/-- 44_transactions.md R208, 43_recovery.md R194, R198: a step that leaves the transaction body either ends it with OK and
no recovery, or raises one of the three hardware kinds and goes to recovery; no step of recovery alters the latch. -/
def Obligations.HardwareErrorsGoThroughRecovery : Prop :=
  ∀ s t : State, step s = .next t →
    (s.st.inBody = true → t.st.inBody = false →
      (t.st = .respond ∧ s.st = .doneWait ∧ t.errKind = .ok ∧ t.errDetail = 0) ∨
      (t.st = .recReset ∧ t.errKind.isHardware = true)) ∧
    (s.st.inBody = true → t.st.inBody = true → t.errKind = s.errKind ∧ t.errDetail = s.errDetail) ∧
    (s.st.inRecovery = true → t.errKind = s.errKind ∧ t.errDetail = s.errDetail)

/-- 00_scope.md R8, 30_encoding.md R113, 42_poller.md R175: `neg32` is its own inverse, and the negation of a snapshot with
an error bit is neither 0 nor the detail of a timeout. -/
def Obligations.NegatedSnapshotsAreDistinguishable : Prop :=
  ∀ v : Word, neg32 (neg32 v) = v ∧
    (v.getLsbD Config.params.isNoackBit = true ∨ v.getLsbD Config.params.isArbLostBit = true →
      neg32 v ≠ 0 ∧ neg32 v ≠ 0xFFFFFFFF)

/-! ## The whole machine -/

/-- 44_transactions.md R209, Table 44-1: the transition relation. -/
def Obligations.TransitionsFollowTheTable : Prop :=
  ∀ s t : State, step s = .next t → t.st ∈ s.st.successors

/-- The invariant of Safety.lean is kept by every step. -/
def Obligations.InvariantKeptByEveryStep : Prop :=
  ∀ s t : State, s.Inv → step s = .next t → t.Inv

/-- The invariant holds after reset. -/
def Obligations.InvariantHoldsAtReset : Prop := State.reset.Inv

/-- 20_memory.md R70: the buffer space keeps its canonical form, in every state. -/
def Obligations.BufferSpaceStaysCanonical : Prop :=
  ∀ s t : State, memWf s.mem = true → step s = .next t → memWf t.mem = true

/-- 20_memory.md R62, R69: the register events of a step are all at the registers of Table 20-1 of the entry the command
names, SL_CNFG only of a standard controller. -/
def Obligations.OnlyTheSixRegistersAreAccessed : Prop :=
  ∀ s t : State, s.Inv → step s = .next t →
    ∃ es, t.trace = s.trace ++ es ∧
      ∀ e ∈ es, e.registerIn ((s.ct[s.dC.toNat]?.map registerMap).getD []) = true

/-- 41_word_mover.md R158, R163: only the fetch of a WRITE reads the buffer, only the store of a READ writes it (in a READ
no buffer read, in a WRITE or PROBE no buffer write), and the buffer space is otherwise unchanged. -/
def Obligations.BufferEventsByDirection : Prop :=
  ∀ s t : State, step s = .next t →
    ∃ es, t.trace = s.trace ++ es ∧
      ((∃ e ∈ es, e.isBufferRead = true) → s.st = .wrFetch ∧ s.dProbe = false) ∧
      ((∃ e ∈ es, e.isBufferWrite = true) → s.st = .rdStore) ∧
      (s.Inv → (∃ e ∈ es, e.isBufferRead = true) → s.dRead = false) ∧
      (s.Inv → (∃ e ∈ es, e.isBufferWrite = true) → s.dRead = true) ∧
      (s.st ≠ .rdStore → t.mem = s.mem)

/-- 42_poller.md R177: polls only read: no register write, no buffer event. -/
def Obligations.PollsOnlyRead : Prop :=
  ∀ s t : State, s.st.isPoll = true → step s = .next t →
    ∃ es, t.trace = s.trace ++ es ∧ t.mem = s.mem ∧
      ∀ e ∈ es, e.isRegWrite = false ∧ e.isBufferRead = false ∧ e.isBufferWrite = false

/-- 10_state.md R23: `inited` is never cleared, and it is set only for INIT's entry, at the end of its recovery. -/
def Obligations.InitedIsSetByInitAndNeverCleared : Prop :=
  ∀ (s t : State) (i : Nat) (c : Ctlr), step s = .next t → s.ct[i]? = some c →
    ∃ c', t.ct[i]? = some c' ∧ (c.inited = true → c'.inited = true) ∧
      (c.inited = false → c'.inited = true →
        s.dInit = true ∧ (s.st = .recCnfg ∨ s.st = .recSlWr) ∧ i = s.dC.toNat)

/-- 10_state.md R24: `speed_hz`, `pinmux` and `single_clk` are read by no rule, so a step does the same whatever they
hold; and, the configuration port apart, no field of the table but `inited` is ever written. -/
def Obligations.TableFieldsReadAndWritten : Prop :=
  (∀ s : State, viewed State.Of.blankUnread (step s) = viewed State.Of.blankUnread (step s.blankUnread)) ∧
  ∀ s t : State, (s.st = .idle → ∀ index r rest, s.hostIn ≠ .cfgWrite index r :: rest) → step s = .next t →
    ∀ i : Nat, t.ct[i]?.map (fun c => { c with inited := false }) = s.ct[i]?.map (fun c => { c with inited := false })

/-- 10_state.md R26: from acceptance to response the Transfer Descriptor does not change. That the response itself leaves it,
dead from then on, is the model's choice (log 30). -/
def Obligations.DescriptorHeldDuringACommand : Prop :=
  ∀ s t : State, s.st ≠ .idle → step s = .next t →
    t.dC = s.dC ∧ t.dAddr8 = s.dAddr8 ∧ t.dBuf = s.dBuf ∧ t.dLen = s.dLen ∧ t.dRead = s.dRead ∧ t.dTen = s.dTen ∧
      t.dProbe = s.dProbe ∧ t.dInit = s.dInit ∧ t.hostIn = s.hostIn

/-- 44_transactions.md R209: every visit outside IDLE brings the response nearer. -/
def Obligations.EveryVisitBringsTheResponseNearer : Prop :=
  ∀ s t : State, s.Inv → s.st ≠ .idle → step s = .next t → t.visitsLeft < s.visitsLeft

/-- 44_transactions.md R209, R211; 70_reset_and_hazards.md R272: provided each port event completes, a command in progress
ends with its response, within the bound of visits. -/
def Obligations.CommandEndsWithItsResponse : Prop :=
  ∀ s : State, s.Inv → s.st ≠ .idle → s.portLimit = none → s.BasesAligned → s.SourceReadable →
    ∃ n t, n ≤ s.visitsLeft ∧ Host.Core.run Sys2Proof.core n s = .next t ∧ t.st = .idle ∧
      ∃ k d p, t.trace.getLast? = some (.rsp k d p)

/-! ## Where the machine stops, and reset -/

/-- 20_memory.md R61: a register access at an address that is no multiple of 4 is refused. -/
def Obligations.MisalignedBasesRefused : Prop :=
  ∀ (s : State) (c : Ctlr), s.ct[s.dC.toNat]? = some c →
    (c.ctrlBase.toNat % 4 ≠ 0 → ∀ i ∈ [Instr.clrstClrRd, .clrstClrWr, .hdrHdr1, .hdrHdr2, .hdrHdr3, .pushwWrPush,
      .waittxWrWait, .waitrxRdWait, .popwRdPop, .waitdoneDoneWait], exec i s = .refused .misalignedRegister) ∧
    (c.regsBase.toNat % 4 ≠ 0 → ∀ i ∈ [Instr.recoverRecCnfg, .recoverRecSlRd, .recoverRecSlWr],
      exec i s = .refused .misalignedRegister)

/-- 20_memory.md R79, 43_recovery.md R195, 44_transactions.md R211: a port event the environment does not complete leaves
CORE stuck, never with an error kind. `portLimit` counts the events it still completes, which is the model's way to say it
(log 6); each clause is about the first event of the visit that is not completed. THE MODEL'S CHOICE (log 20): the clauses
about the rows in the formats hdr1, hdr2, hdr3 and rsp run a header word or a response by itself, with any operands; the
spec has only the visits HDR1, HDR2, HDR3 and RESPOND, whose stops are the clauses beside them. -/
def Obligations.UncompletedPortEventsAreStuck : Prop :=
  ∀ (s : State) (c : Ctlr), s.ct[s.dC.toNat]? = some c → c.ctrlBase.toNat % 4 = 0 → c.regsBase.toNat % 4 = 0 →
    (s.portLimit = some 0 →
      (∀ i ∈ [Instr.clrstClrRd, .clrstClrWr, .hdrHdr1, .hdrHdr2, .hdrHdr3, .pushwWrPush, .waittxWrWait, .waitrxRdWait,
        .popwRdPop, .waitdoneDoneWait, .recoverRecCnfg, .recoverRecSlRd, .recoverRecSlWr],
        exec i s = .fault (.portStuck .register)) ∧
      (∀ i : Instr, i.format ∈ [.hdr1, .hdr2, .hdr3] → exec i s = .fault (.portStuck .register)) ∧
      exec .recoverRecReset s = .fault (.portStuck .periphReset) ∧
      exec .seqRespond s = .fault (.portStuck .response) ∧
      (∀ i : Instr, i.format = .rsp → exec i s = .fault (.portStuck .response))) ∧
    (∀ n : Nat, s.portLimit = some n → s.dProbe = false → (memWord s.mem s.ptr).isSome = true →
      (if s.ptr.toNat % 4 = 0 then n < 1 else n < 4) → exec .pushwWrFetch s = .fault (.portStuck .buffer)) ∧
    (∀ n : Nat, s.portLimit = some n → n < (if s.words = 1 ∧ s.rem ≠ 0 then s.rem.toNat
      else if s.ptr.toNat % 4 = 0 then 1 else 4) → exec .popwRdStore s = .fault (.portStuck .buffer)) ∧
    (s.portLimit = some 1 →
      (txReady s.answer = false → exec .waittxWrWait s = .fault (.portStuck .time)) ∧
      (rxReady s.answer = false → exec .waitrxRdWait s = .fault (.portStuck .time)) ∧
      (noAck s.answer = false → arbLost s.answer = false → xferDone s.answer = false →
        exec .waitdoneDoneWait s = .fault (.portStuck .time)))

/-- 20_memory.md R79, 41_word_mover.md R154: a WRITE needs all four bytes of a word readable, payload or not. -/
def Obligations.UnreadableSourceIsStuck : Prop :=
  ∀ (s : State) (j : Nat), s.dProbe = false → s.portLimit = none → j < 4 →
    memGet s.mem (s.ptr + BitVec.ofNat Config.params.addrW j).toNat = none →
    exec .pushwWrFetch s = .fault .bufferUnreadable

/-- THE MODEL'S CHOICE (log 15, log 16), for states no run of the spec reaches: a visit that needs `CT[d_c]` stops where
the table has no such entry, and an advance with `words = 0`, for which Table 44-1 has no row, stops too. -/
def Obligations.StopsWhereTheSpecHasNoRun : Prop :=
  ∀ s : State,
    (Config.params.nCtlr ≤ s.dC.toNat → ∀ i ∈ [Instr.clrstClrRd, .clrstClrWr, .hdrHdr1, .hdrHdr2, .hdrHdr3, .pushwWrPush,
      .waittxWrWait, .waitrxRdWait, .popwRdPop, .waitdoneDoneWait, .recoverRecReset, .recoverRecCnfg,
      .recoverRecSlRd, .recoverRecSlWr], exec i s = .fault .noController) ∧
    (s.words = 0 → s.portLimit = none → exec .popwRdStore s = .fault .noTransition) ∧
    (∀ c, s.ct[s.dC.toNat]? = some c → c.ctrlBase.toNat % 4 = 0 → s.portLimit = none → s.words = 0 →
      txReady s.answer = true → exec .waittxWrWait s = .fault .noTransition)

/-- 10_state.md R37, Table 10-4; 70_reset_and_hazards.md R260: after reset the table is zero-valued, CORE is idle, and no
port event has occurred. -/
def Obligations.ResetLeavesAZeroTableAndIdle : Prop :=
  (∀ i < Config.params.nCtlr, State.reset.ct[i]? = some
    { id := 0, periphId := 0, speedHz := 0, pinmux := 0, regsBase := 0, ctrlBase := 0, singleClk := false,
      isDvc := false, inited := false }) ∧
  State.reset.st = .idle ∧ State.reset.trace = []
end

