-- ==== Sys2Proof/Laws/Memory.lean ====
section
/-!
SUPPORT. The laws of the buffer space: read after write, the canonical form kept by every memory operation, and the
correspondence of words and bytes (20_memory.md R72).
-/

namespace Sys2Proof.Machine

theorem memGet_memPut_same (m : List Host.Cell) (a : Nat) (b : Byte) : memGet (memPut m a b) a = some b := by
  induction m with
  | nil => simp [memPut, memGet]
  | cons c rest ih =>
    obtain ⟨k, v⟩ := c
    simp only [memPut]
    split
    · simp [memGet]
    · split
      · simp [memGet]
      · rename_i h1 h2
        have : ¬ k = a := fun h => h2 h.symm
        simp [memGet, this, ih]

theorem memGet_memPut_other (m : List Host.Cell) (a a' : Nat) (b : Byte) (h : a' ≠ a) :
    memGet (memPut m a b) a' = memGet m a' := by
  have h' : ¬ a = a' := fun e => h e.symm
  induction m with
  | nil => simp [memPut, memGet, h']
  | cons c rest ih =>
    obtain ⟨k, v⟩ := c
    simp only [memPut]
    split
    · simp [memGet, h']
    · split
      · rename_i h1 h2
        subst h2
        simp [memGet, h']
      · simp [memGet, ih]

theorem memGet_memPut (m : List Host.Cell) (a a' : Nat) (b : Byte) :
    memGet (memPut m a b) a' = if a' = a then some b else memGet m a' := by
  split
  · rename_i h
    subst h
    exact memGet_memPut_same m a' b
  · exact memGet_memPut_other m a a' b ‹_›

/-- Putting above a bound keeps the list rising above it. -/
theorem memRising_memPut (m : List Host.Cell) (a : Nat) (b : Byte) (lo : Option Nat)
    (hlo : ∀ l, lo = some l → l < a) (h : memRising lo m = true) : memRising lo (memPut m a b) = true := by
  induction m generalizing lo with
  | nil => cases lo <;> simp [memPut, memRising]; exact hlo _ rfl
  | cons c rest ih =>
    obtain ⟨k, v⟩ := c
    have hk : memRising (some k) rest = true := by
      cases lo <;> simp [memRising] at h
      · exact h
      · exact h.2
    simp only [memPut]
    split
    · rename_i hak
      cases lo <;> simp [memRising, hak, hk]
      exact hlo _ rfl
    · split
      · rename_i _ hak
        subst hak
        cases lo <;> simp [memRising, hk]
        exact hlo _ rfl
      · rename_i h1 h2
        have hka : k < a := by omega
        have := ih (some k) (by simp; exact hka) hk
        cases lo <;> simp [memRising, this] at h ⊢
        exact h.1

theorem memPut_all (m : List Host.Cell) (a : Nat) (b : Byte) (n : Nat) (ha : a < n)
    (h : (m.all fun c => decide (c.1 < n)) = true) : ((memPut m a b).all fun c => decide (c.1 < n)) = true := by
  induction m with
  | nil => simp [memPut, ha]
  | cons c rest ih =>
    obtain ⟨k, v⟩ := c
    simp only [List.all_cons, Bool.and_eq_true, decide_eq_true_eq] at h
    simp only [memPut]
    split
    · simp only [List.all_cons, Bool.and_eq_true, decide_eq_true_eq]
      exact ⟨ha, h.1, h.2⟩
    · split
      · simp only [List.all_cons, Bool.and_eq_true, decide_eq_true_eq]
        exact ⟨ha, h.2⟩
      · simp only [List.all_cons, Bool.and_eq_true, decide_eq_true_eq]
        exact ⟨h.1, ih h.2⟩

/-- A byte write keeps the canonical form. -/
theorem memPut_wf (m : List Host.Cell) (a : Addr) (b : Byte) (h : memWf m = true) :
    memWf (memPut m a.toNat b) = true := by
  simp only [memWf, Bool.and_eq_true] at h ⊢
  exact ⟨memRising_memPut m _ b none (by simp) h.1, memPut_all m _ b _ a.isLt h.2⟩

/-- A word write keeps the canonical form. -/
theorem memPutBytes_wf (m : List Host.Cell) (a : Addr) (w : Word) (n : Nat) (h : memWf m = true) :
    memWf (memPutBytes m a w n) = true := by
  induction n with
  | zero => exact h
  | succ n ih => exact memPut_wf _ _ _ ih

/-- The memory after reset is canonical. -/
theorem reset_mem_wf : memWf State.reset.mem = true := by decide

/-- What a word write leaves: byte `j` of the word at `a + j`, everything else as before (20_memory.md R72). -/
theorem memGet_memPutBytes_other (m : List Host.Cell) (a : Addr) (w : Word) (n x : Nat)
    (h : ∀ j < n, x ≠ (a + BitVec.ofNat Config.params.addrW j).toNat) : memGet (memPutBytes m a w n) x = memGet m x := by
  induction n with
  | zero => rfl
  | succ n ih =>
    rw [memPutBytes, memGet_memPut_other _ _ _ _ (h n (by omega))]
    exact ih fun j hj => h j (by omega)

theorem memGet_memPutBytes_same (m : List Host.Cell) (a : Addr) (w : Word) (n j : Nat) (hj : j < n) (hn : n ≤ 4) :
    memGet (memPutBytes m a w n) (a + BitVec.ofNat Config.params.addrW j).toNat = some (byteOf w j) := by
  induction n with
  | zero => omega
  | succ n ih =>
    rw [memPutBytes, memGet_memPut]
    split
    · rename_i h
      have : j = n := by
        have h2 := congrArg (fun k => (k + 2 ^ Config.params.addrW - a.toNat) % 2 ^ Config.params.addrW) h
        have := a.isLt
        simp only [BitVec.toNat_add, BitVec.toNat_ofNat, Config.params_addrW] at h2 this
        omega
      rw [this]
    · rename_i h
      exact ih (by
        rcases Nat.lt_succ_iff_lt_or_eq.mp hj with h' | h'
        · exact h'
        · exact absurd (by rw [h']) h) (by omega)

end Sys2Proof.Machine
end

