-- ==== Sys2Proof/Laws/State.lean ====
section
/-!
SUPPORT. One lemma per field per named update of Machine/Update.lean, so that no proof unfolds a record update.
-/

namespace Sys2Proof.Machine

variable {P : Params}

@[simp] theorem State.Of.goto_ct (s : State.Of P) (t : SeqState) : (s.goto t).ct = s.ct := rfl
@[simp] theorem State.Of.goto_dC (s : State.Of P) (t : SeqState) : (s.goto t).dC = s.dC := rfl
@[simp] theorem State.Of.goto_dAddr8 (s : State.Of P) (t : SeqState) : (s.goto t).dAddr8 = s.dAddr8 := rfl
@[simp] theorem State.Of.goto_dBuf (s : State.Of P) (t : SeqState) : (s.goto t).dBuf = s.dBuf := rfl
@[simp] theorem State.Of.goto_dLen (s : State.Of P) (t : SeqState) : (s.goto t).dLen = s.dLen := rfl
@[simp] theorem State.Of.goto_dRead (s : State.Of P) (t : SeqState) : (s.goto t).dRead = s.dRead := rfl
@[simp] theorem State.Of.goto_dTen (s : State.Of P) (t : SeqState) : (s.goto t).dTen = s.dTen := rfl
@[simp] theorem State.Of.goto_dProbe (s : State.Of P) (t : SeqState) : (s.goto t).dProbe = s.dProbe := rfl
@[simp] theorem State.Of.goto_dInit (s : State.Of P) (t : SeqState) : (s.goto t).dInit = s.dInit := rfl
@[simp] theorem State.Of.goto_words (s : State.Of P) (t : SeqState) : (s.goto t).words = s.words := rfl
@[simp] theorem State.Of.goto_rem (s : State.Of P) (t : SeqState) : (s.goto t).rem = s.rem := rfl
@[simp] theorem State.Of.goto_ptr (s : State.Of P) (t : SeqState) : (s.goto t).ptr = s.ptr := rfl
@[simp] theorem State.Of.goto_stage (s : State.Of P) (t : SeqState) : (s.goto t).stage = s.stage := rfl
@[simp] theorem State.Of.goto_polls (s : State.Of P) (t : SeqState) : (s.goto t).polls = s.polls := rfl
@[simp] theorem State.Of.goto_snap (s : State.Of P) (t : SeqState) : (s.goto t).snap = s.snap := rfl
@[simp] theorem State.Of.goto_errKind (s : State.Of P) (t : SeqState) : (s.goto t).errKind = s.errKind := rfl
@[simp] theorem State.Of.goto_errDetail (s : State.Of P) (t : SeqState) : (s.goto t).errDetail = s.errDetail := rfl
@[simp] theorem State.Of.goto_st (s : State.Of P) (t : SeqState) : (s.goto t).st = t := rfl
@[simp] theorem State.Of.goto_mem (s : State.Of P) (t : SeqState) : (s.goto t).mem = s.mem := rfl
@[simp] theorem State.Of.goto_hostIn (s : State.Of P) (t : SeqState) : (s.goto t).hostIn = s.hostIn := rfl
@[simp] theorem State.Of.goto_rspPort (s : State.Of P) (t : SeqState) : (s.goto t).rspPort = s.rspPort := rfl
@[simp] theorem State.Of.goto_trace (s : State.Of P) (t : SeqState) : (s.goto t).trace = s.trace := rfl
@[simp] theorem State.Of.goto_regAnswers (s : State.Of P) (t : SeqState) : (s.goto t).regAnswers = s.regAnswers := rfl
@[simp] theorem State.Of.goto_draws (s : State.Of P) (t : SeqState) : (s.goto t).draws = s.draws := rfl
@[simp] theorem State.Of.goto_portLimit (s : State.Of P) (t : SeqState) : (s.goto t).portLimit = s.portLimit := rfl

@[simp] theorem State.Of.setStage_ct (s : State.Of P) (w : Word) : (s.setStage w).ct = s.ct := rfl
@[simp] theorem State.Of.setStage_dC (s : State.Of P) (w : Word) : (s.setStage w).dC = s.dC := rfl
@[simp] theorem State.Of.setStage_dAddr8 (s : State.Of P) (w : Word) : (s.setStage w).dAddr8 = s.dAddr8 := rfl
@[simp] theorem State.Of.setStage_dBuf (s : State.Of P) (w : Word) : (s.setStage w).dBuf = s.dBuf := rfl
@[simp] theorem State.Of.setStage_dLen (s : State.Of P) (w : Word) : (s.setStage w).dLen = s.dLen := rfl
@[simp] theorem State.Of.setStage_dRead (s : State.Of P) (w : Word) : (s.setStage w).dRead = s.dRead := rfl
@[simp] theorem State.Of.setStage_dTen (s : State.Of P) (w : Word) : (s.setStage w).dTen = s.dTen := rfl
@[simp] theorem State.Of.setStage_dProbe (s : State.Of P) (w : Word) : (s.setStage w).dProbe = s.dProbe := rfl
@[simp] theorem State.Of.setStage_dInit (s : State.Of P) (w : Word) : (s.setStage w).dInit = s.dInit := rfl
@[simp] theorem State.Of.setStage_words (s : State.Of P) (w : Word) : (s.setStage w).words = s.words := rfl
@[simp] theorem State.Of.setStage_rem (s : State.Of P) (w : Word) : (s.setStage w).rem = s.rem := rfl
@[simp] theorem State.Of.setStage_ptr (s : State.Of P) (w : Word) : (s.setStage w).ptr = s.ptr := rfl
@[simp] theorem State.Of.setStage_stage (s : State.Of P) (w : Word) : (s.setStage w).stage = w := rfl
@[simp] theorem State.Of.setStage_polls (s : State.Of P) (w : Word) : (s.setStage w).polls = s.polls := rfl
@[simp] theorem State.Of.setStage_snap (s : State.Of P) (w : Word) : (s.setStage w).snap = s.snap := rfl
@[simp] theorem State.Of.setStage_errKind (s : State.Of P) (w : Word) : (s.setStage w).errKind = s.errKind := rfl
@[simp] theorem State.Of.setStage_errDetail (s : State.Of P) (w : Word) : (s.setStage w).errDetail = s.errDetail := rfl
@[simp] theorem State.Of.setStage_st (s : State.Of P) (w : Word) : (s.setStage w).st = s.st := rfl
@[simp] theorem State.Of.setStage_mem (s : State.Of P) (w : Word) : (s.setStage w).mem = s.mem := rfl
@[simp] theorem State.Of.setStage_hostIn (s : State.Of P) (w : Word) : (s.setStage w).hostIn = s.hostIn := rfl
@[simp] theorem State.Of.setStage_rspPort (s : State.Of P) (w : Word) : (s.setStage w).rspPort = s.rspPort := rfl
@[simp] theorem State.Of.setStage_trace (s : State.Of P) (w : Word) : (s.setStage w).trace = s.trace := rfl
@[simp] theorem State.Of.setStage_regAnswers (s : State.Of P) (w : Word) : (s.setStage w).regAnswers = s.regAnswers := rfl
@[simp] theorem State.Of.setStage_draws (s : State.Of P) (w : Word) : (s.setStage w).draws = s.draws := rfl
@[simp] theorem State.Of.setStage_portLimit (s : State.Of P) (w : Word) : (s.setStage w).portLimit = s.portLimit := rfl

@[simp] theorem State.Of.setSnap_ct (s : State.Of P) (w : Word) : (s.setSnap w).ct = s.ct := rfl
@[simp] theorem State.Of.setSnap_dC (s : State.Of P) (w : Word) : (s.setSnap w).dC = s.dC := rfl
@[simp] theorem State.Of.setSnap_dAddr8 (s : State.Of P) (w : Word) : (s.setSnap w).dAddr8 = s.dAddr8 := rfl
@[simp] theorem State.Of.setSnap_dBuf (s : State.Of P) (w : Word) : (s.setSnap w).dBuf = s.dBuf := rfl
@[simp] theorem State.Of.setSnap_dLen (s : State.Of P) (w : Word) : (s.setSnap w).dLen = s.dLen := rfl
@[simp] theorem State.Of.setSnap_dRead (s : State.Of P) (w : Word) : (s.setSnap w).dRead = s.dRead := rfl
@[simp] theorem State.Of.setSnap_dTen (s : State.Of P) (w : Word) : (s.setSnap w).dTen = s.dTen := rfl
@[simp] theorem State.Of.setSnap_dProbe (s : State.Of P) (w : Word) : (s.setSnap w).dProbe = s.dProbe := rfl
@[simp] theorem State.Of.setSnap_dInit (s : State.Of P) (w : Word) : (s.setSnap w).dInit = s.dInit := rfl
@[simp] theorem State.Of.setSnap_words (s : State.Of P) (w : Word) : (s.setSnap w).words = s.words := rfl
@[simp] theorem State.Of.setSnap_rem (s : State.Of P) (w : Word) : (s.setSnap w).rem = s.rem := rfl
@[simp] theorem State.Of.setSnap_ptr (s : State.Of P) (w : Word) : (s.setSnap w).ptr = s.ptr := rfl
@[simp] theorem State.Of.setSnap_stage (s : State.Of P) (w : Word) : (s.setSnap w).stage = s.stage := rfl
@[simp] theorem State.Of.setSnap_polls (s : State.Of P) (w : Word) : (s.setSnap w).polls = s.polls := rfl
@[simp] theorem State.Of.setSnap_snap (s : State.Of P) (w : Word) : (s.setSnap w).snap = w := rfl
@[simp] theorem State.Of.setSnap_errKind (s : State.Of P) (w : Word) : (s.setSnap w).errKind = s.errKind := rfl
@[simp] theorem State.Of.setSnap_errDetail (s : State.Of P) (w : Word) : (s.setSnap w).errDetail = s.errDetail := rfl
@[simp] theorem State.Of.setSnap_st (s : State.Of P) (w : Word) : (s.setSnap w).st = s.st := rfl
@[simp] theorem State.Of.setSnap_mem (s : State.Of P) (w : Word) : (s.setSnap w).mem = s.mem := rfl
@[simp] theorem State.Of.setSnap_hostIn (s : State.Of P) (w : Word) : (s.setSnap w).hostIn = s.hostIn := rfl
@[simp] theorem State.Of.setSnap_rspPort (s : State.Of P) (w : Word) : (s.setSnap w).rspPort = s.rspPort := rfl
@[simp] theorem State.Of.setSnap_trace (s : State.Of P) (w : Word) : (s.setSnap w).trace = s.trace := rfl
@[simp] theorem State.Of.setSnap_regAnswers (s : State.Of P) (w : Word) : (s.setSnap w).regAnswers = s.regAnswers := rfl
@[simp] theorem State.Of.setSnap_draws (s : State.Of P) (w : Word) : (s.setSnap w).draws = s.draws := rfl
@[simp] theorem State.Of.setSnap_portLimit (s : State.Of P) (w : Word) : (s.setSnap w).portLimit = s.portLimit := rfl

@[simp] theorem State.Of.setPolls_ct (s : State.Of P) (n : BitVec P.pollsW) : (s.setPolls n).ct = s.ct := rfl
@[simp] theorem State.Of.setPolls_dC (s : State.Of P) (n : BitVec P.pollsW) : (s.setPolls n).dC = s.dC := rfl
@[simp] theorem State.Of.setPolls_dAddr8 (s : State.Of P) (n : BitVec P.pollsW) : (s.setPolls n).dAddr8 = s.dAddr8 := rfl
@[simp] theorem State.Of.setPolls_dBuf (s : State.Of P) (n : BitVec P.pollsW) : (s.setPolls n).dBuf = s.dBuf := rfl
@[simp] theorem State.Of.setPolls_dLen (s : State.Of P) (n : BitVec P.pollsW) : (s.setPolls n).dLen = s.dLen := rfl
@[simp] theorem State.Of.setPolls_dRead (s : State.Of P) (n : BitVec P.pollsW) : (s.setPolls n).dRead = s.dRead := rfl
@[simp] theorem State.Of.setPolls_dTen (s : State.Of P) (n : BitVec P.pollsW) : (s.setPolls n).dTen = s.dTen := rfl
@[simp] theorem State.Of.setPolls_dProbe (s : State.Of P) (n : BitVec P.pollsW) : (s.setPolls n).dProbe = s.dProbe := rfl
@[simp] theorem State.Of.setPolls_dInit (s : State.Of P) (n : BitVec P.pollsW) : (s.setPolls n).dInit = s.dInit := rfl
@[simp] theorem State.Of.setPolls_words (s : State.Of P) (n : BitVec P.pollsW) : (s.setPolls n).words = s.words := rfl
@[simp] theorem State.Of.setPolls_rem (s : State.Of P) (n : BitVec P.pollsW) : (s.setPolls n).rem = s.rem := rfl
@[simp] theorem State.Of.setPolls_ptr (s : State.Of P) (n : BitVec P.pollsW) : (s.setPolls n).ptr = s.ptr := rfl
@[simp] theorem State.Of.setPolls_stage (s : State.Of P) (n : BitVec P.pollsW) : (s.setPolls n).stage = s.stage := rfl
@[simp] theorem State.Of.setPolls_polls (s : State.Of P) (n : BitVec P.pollsW) : (s.setPolls n).polls = n := rfl
@[simp] theorem State.Of.setPolls_snap (s : State.Of P) (n : BitVec P.pollsW) : (s.setPolls n).snap = s.snap := rfl
@[simp] theorem State.Of.setPolls_errKind (s : State.Of P) (n : BitVec P.pollsW) :
    (s.setPolls n).errKind = s.errKind := rfl
@[simp] theorem State.Of.setPolls_errDetail (s : State.Of P) (n : BitVec P.pollsW) :
    (s.setPolls n).errDetail = s.errDetail := rfl
@[simp] theorem State.Of.setPolls_st (s : State.Of P) (n : BitVec P.pollsW) : (s.setPolls n).st = s.st := rfl
@[simp] theorem State.Of.setPolls_mem (s : State.Of P) (n : BitVec P.pollsW) : (s.setPolls n).mem = s.mem := rfl
@[simp] theorem State.Of.setPolls_hostIn (s : State.Of P) (n : BitVec P.pollsW) : (s.setPolls n).hostIn = s.hostIn := rfl
@[simp] theorem State.Of.setPolls_rspPort (s : State.Of P) (n : BitVec P.pollsW) :
    (s.setPolls n).rspPort = s.rspPort := rfl
@[simp] theorem State.Of.setPolls_trace (s : State.Of P) (n : BitVec P.pollsW) : (s.setPolls n).trace = s.trace := rfl
@[simp] theorem State.Of.setPolls_regAnswers (s : State.Of P) (n : BitVec P.pollsW) :
    (s.setPolls n).regAnswers = s.regAnswers := rfl
@[simp] theorem State.Of.setPolls_draws (s : State.Of P) (n : BitVec P.pollsW) : (s.setPolls n).draws = s.draws := rfl
@[simp] theorem State.Of.setPolls_portLimit (s : State.Of P) (n : BitVec P.pollsW) :
    (s.setPolls n).portLimit = s.portLimit := rfl

@[simp] theorem State.Of.setCursor_ct (s : State.Of P) (n : BitVec 11) (p : Addr P) : (s.setCursor n p).ct = s.ct := rfl
@[simp] theorem State.Of.setCursor_dC (s : State.Of P) (n : BitVec 11) (p : Addr P) : (s.setCursor n p).dC = s.dC := rfl
@[simp] theorem State.Of.setCursor_dAddr8 (s : State.Of P) (n : BitVec 11) (p : Addr P) :
    (s.setCursor n p).dAddr8 = s.dAddr8 := rfl
@[simp] theorem State.Of.setCursor_dBuf (s : State.Of P) (n : BitVec 11) (p : Addr P) :
    (s.setCursor n p).dBuf = s.dBuf := rfl
@[simp] theorem State.Of.setCursor_dLen (s : State.Of P) (n : BitVec 11) (p : Addr P) :
    (s.setCursor n p).dLen = s.dLen := rfl
@[simp] theorem State.Of.setCursor_dRead (s : State.Of P) (n : BitVec 11) (p : Addr P) :
    (s.setCursor n p).dRead = s.dRead := rfl
@[simp] theorem State.Of.setCursor_dTen (s : State.Of P) (n : BitVec 11) (p : Addr P) :
    (s.setCursor n p).dTen = s.dTen := rfl
@[simp] theorem State.Of.setCursor_dProbe (s : State.Of P) (n : BitVec 11) (p : Addr P) :
    (s.setCursor n p).dProbe = s.dProbe := rfl
@[simp] theorem State.Of.setCursor_dInit (s : State.Of P) (n : BitVec 11) (p : Addr P) :
    (s.setCursor n p).dInit = s.dInit := rfl
@[simp] theorem State.Of.setCursor_words (s : State.Of P) (n : BitVec 11) (p : Addr P) : (s.setCursor n p).words = n :=
    rfl
@[simp] theorem State.Of.setCursor_rem (s : State.Of P) (n : BitVec 11) (p : Addr P) : (s.setCursor n p).rem = s.rem :=
    rfl
@[simp] theorem State.Of.setCursor_ptr (s : State.Of P) (n : BitVec 11) (p : Addr P) : (s.setCursor n p).ptr = p := rfl
@[simp] theorem State.Of.setCursor_stage (s : State.Of P) (n : BitVec 11) (p : Addr P) :
    (s.setCursor n p).stage = s.stage := rfl
@[simp] theorem State.Of.setCursor_polls (s : State.Of P) (n : BitVec 11) (p : Addr P) :
    (s.setCursor n p).polls = s.polls := rfl
@[simp] theorem State.Of.setCursor_snap (s : State.Of P) (n : BitVec 11) (p : Addr P) :
    (s.setCursor n p).snap = s.snap := rfl
@[simp] theorem State.Of.setCursor_errKind (s : State.Of P) (n : BitVec 11) (p : Addr P) :
    (s.setCursor n p).errKind = s.errKind := rfl
@[simp] theorem State.Of.setCursor_errDetail (s : State.Of P) (n : BitVec 11) (p : Addr P) :
    (s.setCursor n p).errDetail = s.errDetail := rfl
@[simp] theorem State.Of.setCursor_st (s : State.Of P) (n : BitVec 11) (p : Addr P) : (s.setCursor n p).st = s.st := rfl
@[simp] theorem State.Of.setCursor_mem (s : State.Of P) (n : BitVec 11) (p : Addr P) : (s.setCursor n p).mem = s.mem :=
    rfl
@[simp] theorem State.Of.setCursor_hostIn (s : State.Of P) (n : BitVec 11) (p : Addr P) :
    (s.setCursor n p).hostIn = s.hostIn := rfl
@[simp] theorem State.Of.setCursor_rspPort (s : State.Of P) (n : BitVec 11) (p : Addr P) :
    (s.setCursor n p).rspPort = s.rspPort := rfl
@[simp] theorem State.Of.setCursor_trace (s : State.Of P) (n : BitVec 11) (p : Addr P) :
    (s.setCursor n p).trace = s.trace := rfl
@[simp] theorem State.Of.setCursor_regAnswers (s : State.Of P) (n : BitVec 11) (p : Addr P) :
    (s.setCursor n p).regAnswers = s.regAnswers := rfl
@[simp] theorem State.Of.setCursor_draws (s : State.Of P) (n : BitVec 11) (p : Addr P) :
    (s.setCursor n p).draws = s.draws := rfl
@[simp] theorem State.Of.setCursor_portLimit (s : State.Of P) (n : BitVec 11) (p : Addr P) :
    (s.setCursor n p).portLimit = s.portLimit := rfl

@[simp] theorem State.Of.setRem_ct (s : State.Of P) (r : BitVec 2) : (s.setRem r).ct = s.ct := rfl
@[simp] theorem State.Of.setRem_dC (s : State.Of P) (r : BitVec 2) : (s.setRem r).dC = s.dC := rfl
@[simp] theorem State.Of.setRem_dAddr8 (s : State.Of P) (r : BitVec 2) : (s.setRem r).dAddr8 = s.dAddr8 := rfl
@[simp] theorem State.Of.setRem_dBuf (s : State.Of P) (r : BitVec 2) : (s.setRem r).dBuf = s.dBuf := rfl
@[simp] theorem State.Of.setRem_dLen (s : State.Of P) (r : BitVec 2) : (s.setRem r).dLen = s.dLen := rfl
@[simp] theorem State.Of.setRem_dRead (s : State.Of P) (r : BitVec 2) : (s.setRem r).dRead = s.dRead := rfl
@[simp] theorem State.Of.setRem_dTen (s : State.Of P) (r : BitVec 2) : (s.setRem r).dTen = s.dTen := rfl
@[simp] theorem State.Of.setRem_dProbe (s : State.Of P) (r : BitVec 2) : (s.setRem r).dProbe = s.dProbe := rfl
@[simp] theorem State.Of.setRem_dInit (s : State.Of P) (r : BitVec 2) : (s.setRem r).dInit = s.dInit := rfl
@[simp] theorem State.Of.setRem_words (s : State.Of P) (r : BitVec 2) : (s.setRem r).words = s.words := rfl
@[simp] theorem State.Of.setRem_rem (s : State.Of P) (r : BitVec 2) : (s.setRem r).rem = r := rfl
@[simp] theorem State.Of.setRem_ptr (s : State.Of P) (r : BitVec 2) : (s.setRem r).ptr = s.ptr := rfl
@[simp] theorem State.Of.setRem_stage (s : State.Of P) (r : BitVec 2) : (s.setRem r).stage = s.stage := rfl
@[simp] theorem State.Of.setRem_polls (s : State.Of P) (r : BitVec 2) : (s.setRem r).polls = s.polls := rfl
@[simp] theorem State.Of.setRem_snap (s : State.Of P) (r : BitVec 2) : (s.setRem r).snap = s.snap := rfl
@[simp] theorem State.Of.setRem_errKind (s : State.Of P) (r : BitVec 2) : (s.setRem r).errKind = s.errKind := rfl
@[simp] theorem State.Of.setRem_errDetail (s : State.Of P) (r : BitVec 2) : (s.setRem r).errDetail = s.errDetail := rfl
@[simp] theorem State.Of.setRem_st (s : State.Of P) (r : BitVec 2) : (s.setRem r).st = s.st := rfl
@[simp] theorem State.Of.setRem_mem (s : State.Of P) (r : BitVec 2) : (s.setRem r).mem = s.mem := rfl
@[simp] theorem State.Of.setRem_hostIn (s : State.Of P) (r : BitVec 2) : (s.setRem r).hostIn = s.hostIn := rfl
@[simp] theorem State.Of.setRem_rspPort (s : State.Of P) (r : BitVec 2) : (s.setRem r).rspPort = s.rspPort := rfl
@[simp] theorem State.Of.setRem_trace (s : State.Of P) (r : BitVec 2) : (s.setRem r).trace = s.trace := rfl
@[simp] theorem State.Of.setRem_regAnswers (s : State.Of P) (r : BitVec 2) : (s.setRem r).regAnswers = s.regAnswers := rfl
@[simp] theorem State.Of.setRem_draws (s : State.Of P) (r : BitVec 2) : (s.setRem r).draws = s.draws := rfl
@[simp] theorem State.Of.setRem_portLimit (s : State.Of P) (r : BitVec 2) : (s.setRem r).portLimit = s.portLimit := rfl

@[simp] theorem State.Of.setErr_ct (s : State.Of P) (k : Kind) (d : Word) : (s.setErr k d).ct = s.ct := rfl
@[simp] theorem State.Of.setErr_dC (s : State.Of P) (k : Kind) (d : Word) : (s.setErr k d).dC = s.dC := rfl
@[simp] theorem State.Of.setErr_dAddr8 (s : State.Of P) (k : Kind) (d : Word) : (s.setErr k d).dAddr8 = s.dAddr8 := rfl
@[simp] theorem State.Of.setErr_dBuf (s : State.Of P) (k : Kind) (d : Word) : (s.setErr k d).dBuf = s.dBuf := rfl
@[simp] theorem State.Of.setErr_dLen (s : State.Of P) (k : Kind) (d : Word) : (s.setErr k d).dLen = s.dLen := rfl
@[simp] theorem State.Of.setErr_dRead (s : State.Of P) (k : Kind) (d : Word) : (s.setErr k d).dRead = s.dRead := rfl
@[simp] theorem State.Of.setErr_dTen (s : State.Of P) (k : Kind) (d : Word) : (s.setErr k d).dTen = s.dTen := rfl
@[simp] theorem State.Of.setErr_dProbe (s : State.Of P) (k : Kind) (d : Word) : (s.setErr k d).dProbe = s.dProbe := rfl
@[simp] theorem State.Of.setErr_dInit (s : State.Of P) (k : Kind) (d : Word) : (s.setErr k d).dInit = s.dInit := rfl
@[simp] theorem State.Of.setErr_words (s : State.Of P) (k : Kind) (d : Word) : (s.setErr k d).words = s.words := rfl
@[simp] theorem State.Of.setErr_rem (s : State.Of P) (k : Kind) (d : Word) : (s.setErr k d).rem = s.rem := rfl
@[simp] theorem State.Of.setErr_ptr (s : State.Of P) (k : Kind) (d : Word) : (s.setErr k d).ptr = s.ptr := rfl
@[simp] theorem State.Of.setErr_stage (s : State.Of P) (k : Kind) (d : Word) : (s.setErr k d).stage = s.stage := rfl
@[simp] theorem State.Of.setErr_polls (s : State.Of P) (k : Kind) (d : Word) : (s.setErr k d).polls = s.polls := rfl
@[simp] theorem State.Of.setErr_snap (s : State.Of P) (k : Kind) (d : Word) : (s.setErr k d).snap = s.snap := rfl
@[simp] theorem State.Of.setErr_errKind (s : State.Of P) (k : Kind) (d : Word) : (s.setErr k d).errKind = k := rfl
@[simp] theorem State.Of.setErr_errDetail (s : State.Of P) (k : Kind) (d : Word) : (s.setErr k d).errDetail = d := rfl
@[simp] theorem State.Of.setErr_st (s : State.Of P) (k : Kind) (d : Word) : (s.setErr k d).st = s.st := rfl
@[simp] theorem State.Of.setErr_mem (s : State.Of P) (k : Kind) (d : Word) : (s.setErr k d).mem = s.mem := rfl
@[simp] theorem State.Of.setErr_hostIn (s : State.Of P) (k : Kind) (d : Word) : (s.setErr k d).hostIn = s.hostIn := rfl
@[simp] theorem State.Of.setErr_rspPort (s : State.Of P) (k : Kind) (d : Word) : (s.setErr k d).rspPort = s.rspPort := rfl
@[simp] theorem State.Of.setErr_trace (s : State.Of P) (k : Kind) (d : Word) : (s.setErr k d).trace = s.trace := rfl
@[simp] theorem State.Of.setErr_regAnswers (s : State.Of P) (k : Kind) (d : Word) :
    (s.setErr k d).regAnswers = s.regAnswers := rfl
@[simp] theorem State.Of.setErr_draws (s : State.Of P) (k : Kind) (d : Word) : (s.setErr k d).draws = s.draws := rfl
@[simp] theorem State.Of.setErr_portLimit (s : State.Of P) (k : Kind) (d : Word) :
    (s.setErr k d).portLimit = s.portLimit := rfl

@[simp] theorem State.Of.setTable_ct (s : State.Of P) (t : Vector (Ctlr.Of P) P.nCtlr) : (s.setTable t).ct = t := rfl
@[simp] theorem State.Of.setTable_dC (s : State.Of P) (t : Vector (Ctlr.Of P) P.nCtlr) : (s.setTable t).dC = s.dC := rfl
@[simp] theorem State.Of.setTable_dAddr8 (s : State.Of P) (t : Vector (Ctlr.Of P) P.nCtlr) :
    (s.setTable t).dAddr8 = s.dAddr8 := rfl
@[simp] theorem State.Of.setTable_dBuf (s : State.Of P) (t : Vector (Ctlr.Of P) P.nCtlr) :
    (s.setTable t).dBuf = s.dBuf := rfl
@[simp] theorem State.Of.setTable_dLen (s : State.Of P) (t : Vector (Ctlr.Of P) P.nCtlr) :
    (s.setTable t).dLen = s.dLen := rfl
@[simp] theorem State.Of.setTable_dRead (s : State.Of P) (t : Vector (Ctlr.Of P) P.nCtlr) :
    (s.setTable t).dRead = s.dRead := rfl
@[simp] theorem State.Of.setTable_dTen (s : State.Of P) (t : Vector (Ctlr.Of P) P.nCtlr) :
    (s.setTable t).dTen = s.dTen := rfl
@[simp] theorem State.Of.setTable_dProbe (s : State.Of P) (t : Vector (Ctlr.Of P) P.nCtlr) :
    (s.setTable t).dProbe = s.dProbe := rfl
@[simp] theorem State.Of.setTable_dInit (s : State.Of P) (t : Vector (Ctlr.Of P) P.nCtlr) :
    (s.setTable t).dInit = s.dInit := rfl
@[simp] theorem State.Of.setTable_words (s : State.Of P) (t : Vector (Ctlr.Of P) P.nCtlr) :
    (s.setTable t).words = s.words := rfl
@[simp] theorem State.Of.setTable_rem (s : State.Of P) (t : Vector (Ctlr.Of P) P.nCtlr) : (s.setTable t).rem = s.rem :=
    rfl
@[simp] theorem State.Of.setTable_ptr (s : State.Of P) (t : Vector (Ctlr.Of P) P.nCtlr) : (s.setTable t).ptr = s.ptr :=
    rfl
@[simp] theorem State.Of.setTable_stage (s : State.Of P) (t : Vector (Ctlr.Of P) P.nCtlr) :
    (s.setTable t).stage = s.stage := rfl
@[simp] theorem State.Of.setTable_polls (s : State.Of P) (t : Vector (Ctlr.Of P) P.nCtlr) :
    (s.setTable t).polls = s.polls := rfl
@[simp] theorem State.Of.setTable_snap (s : State.Of P) (t : Vector (Ctlr.Of P) P.nCtlr) :
    (s.setTable t).snap = s.snap := rfl
@[simp] theorem State.Of.setTable_errKind (s : State.Of P) (t : Vector (Ctlr.Of P) P.nCtlr) :
    (s.setTable t).errKind = s.errKind := rfl
@[simp] theorem State.Of.setTable_errDetail (s : State.Of P) (t : Vector (Ctlr.Of P) P.nCtlr) :
    (s.setTable t).errDetail = s.errDetail := rfl
@[simp] theorem State.Of.setTable_st (s : State.Of P) (t : Vector (Ctlr.Of P) P.nCtlr) : (s.setTable t).st = s.st := rfl
@[simp] theorem State.Of.setTable_mem (s : State.Of P) (t : Vector (Ctlr.Of P) P.nCtlr) : (s.setTable t).mem = s.mem :=
    rfl
@[simp] theorem State.Of.setTable_hostIn (s : State.Of P) (t : Vector (Ctlr.Of P) P.nCtlr) :
    (s.setTable t).hostIn = s.hostIn := rfl
@[simp] theorem State.Of.setTable_rspPort (s : State.Of P) (t : Vector (Ctlr.Of P) P.nCtlr) :
    (s.setTable t).rspPort = s.rspPort := rfl
@[simp] theorem State.Of.setTable_trace (s : State.Of P) (t : Vector (Ctlr.Of P) P.nCtlr) :
    (s.setTable t).trace = s.trace := rfl
@[simp] theorem State.Of.setTable_regAnswers (s : State.Of P) (t : Vector (Ctlr.Of P) P.nCtlr) :
    (s.setTable t).regAnswers = s.regAnswers := rfl
@[simp] theorem State.Of.setTable_draws (s : State.Of P) (t : Vector (Ctlr.Of P) P.nCtlr) :
    (s.setTable t).draws = s.draws := rfl
@[simp] theorem State.Of.setTable_portLimit (s : State.Of P) (t : Vector (Ctlr.Of P) P.nCtlr) :
    (s.setTable t).portLimit = s.portLimit := rfl

@[simp] theorem State.Of.setMem_ct (s : State.Of P) (m : List Host.Cell) : (s.setMem m).ct = s.ct := rfl
@[simp] theorem State.Of.setMem_dC (s : State.Of P) (m : List Host.Cell) : (s.setMem m).dC = s.dC := rfl
@[simp] theorem State.Of.setMem_dAddr8 (s : State.Of P) (m : List Host.Cell) : (s.setMem m).dAddr8 = s.dAddr8 := rfl
@[simp] theorem State.Of.setMem_dBuf (s : State.Of P) (m : List Host.Cell) : (s.setMem m).dBuf = s.dBuf := rfl
@[simp] theorem State.Of.setMem_dLen (s : State.Of P) (m : List Host.Cell) : (s.setMem m).dLen = s.dLen := rfl
@[simp] theorem State.Of.setMem_dRead (s : State.Of P) (m : List Host.Cell) : (s.setMem m).dRead = s.dRead := rfl
@[simp] theorem State.Of.setMem_dTen (s : State.Of P) (m : List Host.Cell) : (s.setMem m).dTen = s.dTen := rfl
@[simp] theorem State.Of.setMem_dProbe (s : State.Of P) (m : List Host.Cell) : (s.setMem m).dProbe = s.dProbe := rfl
@[simp] theorem State.Of.setMem_dInit (s : State.Of P) (m : List Host.Cell) : (s.setMem m).dInit = s.dInit := rfl
@[simp] theorem State.Of.setMem_words (s : State.Of P) (m : List Host.Cell) : (s.setMem m).words = s.words := rfl
@[simp] theorem State.Of.setMem_rem (s : State.Of P) (m : List Host.Cell) : (s.setMem m).rem = s.rem := rfl
@[simp] theorem State.Of.setMem_ptr (s : State.Of P) (m : List Host.Cell) : (s.setMem m).ptr = s.ptr := rfl
@[simp] theorem State.Of.setMem_stage (s : State.Of P) (m : List Host.Cell) : (s.setMem m).stage = s.stage := rfl
@[simp] theorem State.Of.setMem_polls (s : State.Of P) (m : List Host.Cell) : (s.setMem m).polls = s.polls := rfl
@[simp] theorem State.Of.setMem_snap (s : State.Of P) (m : List Host.Cell) : (s.setMem m).snap = s.snap := rfl
@[simp] theorem State.Of.setMem_errKind (s : State.Of P) (m : List Host.Cell) : (s.setMem m).errKind = s.errKind := rfl
@[simp] theorem State.Of.setMem_errDetail (s : State.Of P) (m : List Host.Cell) :
    (s.setMem m).errDetail = s.errDetail := rfl
@[simp] theorem State.Of.setMem_st (s : State.Of P) (m : List Host.Cell) : (s.setMem m).st = s.st := rfl
@[simp] theorem State.Of.setMem_mem (s : State.Of P) (m : List Host.Cell) : (s.setMem m).mem = m := rfl
@[simp] theorem State.Of.setMem_hostIn (s : State.Of P) (m : List Host.Cell) : (s.setMem m).hostIn = s.hostIn := rfl
@[simp] theorem State.Of.setMem_rspPort (s : State.Of P) (m : List Host.Cell) : (s.setMem m).rspPort = s.rspPort := rfl
@[simp] theorem State.Of.setMem_trace (s : State.Of P) (m : List Host.Cell) : (s.setMem m).trace = s.trace := rfl
@[simp] theorem State.Of.setMem_regAnswers (s : State.Of P) (m : List Host.Cell) :
    (s.setMem m).regAnswers = s.regAnswers := rfl
@[simp] theorem State.Of.setMem_draws (s : State.Of P) (m : List Host.Cell) : (s.setMem m).draws = s.draws := rfl
@[simp] theorem State.Of.setMem_portLimit (s : State.Of P) (m : List Host.Cell) :
    (s.setMem m).portLimit = s.portLimit := rfl

@[simp] theorem State.Of.record_ct (s : State.Of P) (e : Event.Of P) : (s.record e).ct = s.ct := rfl
@[simp] theorem State.Of.record_dC (s : State.Of P) (e : Event.Of P) : (s.record e).dC = s.dC := rfl
@[simp] theorem State.Of.record_dAddr8 (s : State.Of P) (e : Event.Of P) : (s.record e).dAddr8 = s.dAddr8 := rfl
@[simp] theorem State.Of.record_dBuf (s : State.Of P) (e : Event.Of P) : (s.record e).dBuf = s.dBuf := rfl
@[simp] theorem State.Of.record_dLen (s : State.Of P) (e : Event.Of P) : (s.record e).dLen = s.dLen := rfl
@[simp] theorem State.Of.record_dRead (s : State.Of P) (e : Event.Of P) : (s.record e).dRead = s.dRead := rfl
@[simp] theorem State.Of.record_dTen (s : State.Of P) (e : Event.Of P) : (s.record e).dTen = s.dTen := rfl
@[simp] theorem State.Of.record_dProbe (s : State.Of P) (e : Event.Of P) : (s.record e).dProbe = s.dProbe := rfl
@[simp] theorem State.Of.record_dInit (s : State.Of P) (e : Event.Of P) : (s.record e).dInit = s.dInit := rfl
@[simp] theorem State.Of.record_words (s : State.Of P) (e : Event.Of P) : (s.record e).words = s.words := rfl
@[simp] theorem State.Of.record_rem (s : State.Of P) (e : Event.Of P) : (s.record e).rem = s.rem := rfl
@[simp] theorem State.Of.record_ptr (s : State.Of P) (e : Event.Of P) : (s.record e).ptr = s.ptr := rfl
@[simp] theorem State.Of.record_stage (s : State.Of P) (e : Event.Of P) : (s.record e).stage = s.stage := rfl
@[simp] theorem State.Of.record_polls (s : State.Of P) (e : Event.Of P) : (s.record e).polls = s.polls := rfl
@[simp] theorem State.Of.record_snap (s : State.Of P) (e : Event.Of P) : (s.record e).snap = s.snap := rfl
@[simp] theorem State.Of.record_errKind (s : State.Of P) (e : Event.Of P) : (s.record e).errKind = s.errKind := rfl
@[simp] theorem State.Of.record_errDetail (s : State.Of P) (e : Event.Of P) : (s.record e).errDetail = s.errDetail := rfl
@[simp] theorem State.Of.record_st (s : State.Of P) (e : Event.Of P) : (s.record e).st = s.st := rfl
@[simp] theorem State.Of.record_mem (s : State.Of P) (e : Event.Of P) : (s.record e).mem = s.mem := rfl
@[simp] theorem State.Of.record_hostIn (s : State.Of P) (e : Event.Of P) : (s.record e).hostIn = s.hostIn := rfl
@[simp] theorem State.Of.record_rspPort (s : State.Of P) (e : Event.Of P) : (s.record e).rspPort = s.rspPort := rfl
@[simp] theorem State.Of.record_trace (s : State.Of P) (e : Event.Of P) : (s.record e).trace = s.trace ++ [e] := rfl
@[simp] theorem State.Of.record_regAnswers (s : State.Of P) (e : Event.Of P) :
    (s.record e).regAnswers = s.regAnswers := rfl
@[simp] theorem State.Of.record_draws (s : State.Of P) (e : Event.Of P) : (s.record e).draws = s.draws := rfl
@[simp] theorem State.Of.record_portLimit (s : State.Of P) (e : Event.Of P) :
    (s.record e).portLimit = s.portLimit.map (· - 1) := rfl

@[simp] theorem State.Of.consume_ct (s : State.Of P) : (s.consume).ct = s.ct := rfl
@[simp] theorem State.Of.consume_dC (s : State.Of P) : (s.consume).dC = s.dC := rfl
@[simp] theorem State.Of.consume_dAddr8 (s : State.Of P) : (s.consume).dAddr8 = s.dAddr8 := rfl
@[simp] theorem State.Of.consume_dBuf (s : State.Of P) : (s.consume).dBuf = s.dBuf := rfl
@[simp] theorem State.Of.consume_dLen (s : State.Of P) : (s.consume).dLen = s.dLen := rfl
@[simp] theorem State.Of.consume_dRead (s : State.Of P) : (s.consume).dRead = s.dRead := rfl
@[simp] theorem State.Of.consume_dTen (s : State.Of P) : (s.consume).dTen = s.dTen := rfl
@[simp] theorem State.Of.consume_dProbe (s : State.Of P) : (s.consume).dProbe = s.dProbe := rfl
@[simp] theorem State.Of.consume_dInit (s : State.Of P) : (s.consume).dInit = s.dInit := rfl
@[simp] theorem State.Of.consume_words (s : State.Of P) : (s.consume).words = s.words := rfl
@[simp] theorem State.Of.consume_rem (s : State.Of P) : (s.consume).rem = s.rem := rfl
@[simp] theorem State.Of.consume_ptr (s : State.Of P) : (s.consume).ptr = s.ptr := rfl
@[simp] theorem State.Of.consume_stage (s : State.Of P) : (s.consume).stage = s.stage := rfl
@[simp] theorem State.Of.consume_polls (s : State.Of P) : (s.consume).polls = s.polls := rfl
@[simp] theorem State.Of.consume_snap (s : State.Of P) : (s.consume).snap = s.snap := rfl
@[simp] theorem State.Of.consume_errKind (s : State.Of P) : (s.consume).errKind = s.errKind := rfl
@[simp] theorem State.Of.consume_errDetail (s : State.Of P) : (s.consume).errDetail = s.errDetail := rfl
@[simp] theorem State.Of.consume_st (s : State.Of P) : (s.consume).st = s.st := rfl
@[simp] theorem State.Of.consume_mem (s : State.Of P) : (s.consume).mem = s.mem := rfl
@[simp] theorem State.Of.consume_hostIn (s : State.Of P) : (s.consume).hostIn = s.hostIn := rfl
@[simp] theorem State.Of.consume_rspPort (s : State.Of P) : (s.consume).rspPort = s.rspPort := rfl
@[simp] theorem State.Of.consume_trace (s : State.Of P) : (s.consume).trace = s.trace := rfl
@[simp] theorem State.Of.consume_regAnswers (s : State.Of P) : (s.consume).regAnswers = s.regAnswers.tail := rfl
@[simp] theorem State.Of.consume_draws (s : State.Of P) : (s.consume).draws = s.draws + 1 := rfl
@[simp] theorem State.Of.consume_portLimit (s : State.Of P) : (s.consume).portLimit = s.portLimit := rfl

@[simp] theorem State.Of.drawn_ct (s : State.Of P) : (s.drawn).ct = s.ct := rfl
@[simp] theorem State.Of.drawn_dC (s : State.Of P) : (s.drawn).dC = s.dC := rfl
@[simp] theorem State.Of.drawn_dAddr8 (s : State.Of P) : (s.drawn).dAddr8 = s.dAddr8 := rfl
@[simp] theorem State.Of.drawn_dBuf (s : State.Of P) : (s.drawn).dBuf = s.dBuf := rfl
@[simp] theorem State.Of.drawn_dLen (s : State.Of P) : (s.drawn).dLen = s.dLen := rfl
@[simp] theorem State.Of.drawn_dRead (s : State.Of P) : (s.drawn).dRead = s.dRead := rfl
@[simp] theorem State.Of.drawn_dTen (s : State.Of P) : (s.drawn).dTen = s.dTen := rfl
@[simp] theorem State.Of.drawn_dProbe (s : State.Of P) : (s.drawn).dProbe = s.dProbe := rfl
@[simp] theorem State.Of.drawn_dInit (s : State.Of P) : (s.drawn).dInit = s.dInit := rfl
@[simp] theorem State.Of.drawn_words (s : State.Of P) : (s.drawn).words = s.words := rfl
@[simp] theorem State.Of.drawn_rem (s : State.Of P) : (s.drawn).rem = s.rem := rfl
@[simp] theorem State.Of.drawn_ptr (s : State.Of P) : (s.drawn).ptr = s.ptr := rfl
@[simp] theorem State.Of.drawn_stage (s : State.Of P) : (s.drawn).stage = s.stage := rfl
@[simp] theorem State.Of.drawn_polls (s : State.Of P) : (s.drawn).polls = s.polls := rfl
@[simp] theorem State.Of.drawn_snap (s : State.Of P) : (s.drawn).snap = s.snap := rfl
@[simp] theorem State.Of.drawn_errKind (s : State.Of P) : (s.drawn).errKind = s.errKind := rfl
@[simp] theorem State.Of.drawn_errDetail (s : State.Of P) : (s.drawn).errDetail = s.errDetail := rfl
@[simp] theorem State.Of.drawn_st (s : State.Of P) : (s.drawn).st = s.st := rfl
@[simp] theorem State.Of.drawn_mem (s : State.Of P) : (s.drawn).mem = s.mem := rfl
@[simp] theorem State.Of.drawn_hostIn (s : State.Of P) : (s.drawn).hostIn = s.hostIn := rfl
@[simp] theorem State.Of.drawn_rspPort (s : State.Of P) : (s.drawn).rspPort = s.rspPort := rfl
@[simp] theorem State.Of.drawn_trace (s : State.Of P) : (s.drawn).trace = s.trace := rfl
@[simp] theorem State.Of.drawn_regAnswers (s : State.Of P) : (s.drawn).regAnswers = s.regAnswers := rfl
@[simp] theorem State.Of.drawn_draws (s : State.Of P) : (s.drawn).draws = s.draws + 1 := rfl
@[simp] theorem State.Of.drawn_portLimit (s : State.Of P) : (s.drawn).portLimit = s.portLimit := rfl

@[simp] theorem State.Of.setRspPort_ct (s : State.Of P) (r0 r1 : Word) : (s.setRspPort r0 r1).ct = s.ct := rfl
@[simp] theorem State.Of.setRspPort_dC (s : State.Of P) (r0 r1 : Word) : (s.setRspPort r0 r1).dC = s.dC := rfl
@[simp] theorem State.Of.setRspPort_dAddr8 (s : State.Of P) (r0 r1 : Word) : (s.setRspPort r0 r1).dAddr8 = s.dAddr8 := rfl
@[simp] theorem State.Of.setRspPort_dBuf (s : State.Of P) (r0 r1 : Word) : (s.setRspPort r0 r1).dBuf = s.dBuf := rfl
@[simp] theorem State.Of.setRspPort_dLen (s : State.Of P) (r0 r1 : Word) : (s.setRspPort r0 r1).dLen = s.dLen := rfl
@[simp] theorem State.Of.setRspPort_dRead (s : State.Of P) (r0 r1 : Word) : (s.setRspPort r0 r1).dRead = s.dRead := rfl
@[simp] theorem State.Of.setRspPort_dTen (s : State.Of P) (r0 r1 : Word) : (s.setRspPort r0 r1).dTen = s.dTen := rfl
@[simp] theorem State.Of.setRspPort_dProbe (s : State.Of P) (r0 r1 : Word) : (s.setRspPort r0 r1).dProbe = s.dProbe := rfl
@[simp] theorem State.Of.setRspPort_dInit (s : State.Of P) (r0 r1 : Word) : (s.setRspPort r0 r1).dInit = s.dInit := rfl
@[simp] theorem State.Of.setRspPort_words (s : State.Of P) (r0 r1 : Word) : (s.setRspPort r0 r1).words = s.words := rfl
@[simp] theorem State.Of.setRspPort_rem (s : State.Of P) (r0 r1 : Word) : (s.setRspPort r0 r1).rem = s.rem := rfl
@[simp] theorem State.Of.setRspPort_ptr (s : State.Of P) (r0 r1 : Word) : (s.setRspPort r0 r1).ptr = s.ptr := rfl
@[simp] theorem State.Of.setRspPort_stage (s : State.Of P) (r0 r1 : Word) : (s.setRspPort r0 r1).stage = s.stage := rfl
@[simp] theorem State.Of.setRspPort_polls (s : State.Of P) (r0 r1 : Word) : (s.setRspPort r0 r1).polls = s.polls := rfl
@[simp] theorem State.Of.setRspPort_snap (s : State.Of P) (r0 r1 : Word) : (s.setRspPort r0 r1).snap = s.snap := rfl
@[simp] theorem State.Of.setRspPort_errKind (s : State.Of P) (r0 r1 : Word) :
    (s.setRspPort r0 r1).errKind = s.errKind := rfl
@[simp] theorem State.Of.setRspPort_errDetail (s : State.Of P) (r0 r1 : Word) :
    (s.setRspPort r0 r1).errDetail = s.errDetail := rfl
@[simp] theorem State.Of.setRspPort_st (s : State.Of P) (r0 r1 : Word) : (s.setRspPort r0 r1).st = s.st := rfl
@[simp] theorem State.Of.setRspPort_mem (s : State.Of P) (r0 r1 : Word) : (s.setRspPort r0 r1).mem = s.mem := rfl
@[simp] theorem State.Of.setRspPort_hostIn (s : State.Of P) (r0 r1 : Word) : (s.setRspPort r0 r1).hostIn = s.hostIn := rfl
@[simp] theorem State.Of.setRspPort_rspPort (s : State.Of P) (r0 r1 : Word) :
    (s.setRspPort r0 r1).rspPort = some (r0, r1) := rfl
@[simp] theorem State.Of.setRspPort_trace (s : State.Of P) (r0 r1 : Word) : (s.setRspPort r0 r1).trace = s.trace := rfl
@[simp] theorem State.Of.setRspPort_regAnswers (s : State.Of P) (r0 r1 : Word) :
    (s.setRspPort r0 r1).regAnswers = s.regAnswers := rfl
@[simp] theorem State.Of.setRspPort_draws (s : State.Of P) (r0 r1 : Word) : (s.setRspPort r0 r1).draws = s.draws := rfl
@[simp] theorem State.Of.setRspPort_portLimit (s : State.Of P) (r0 r1 : Word) :
    (s.setRspPort r0 r1).portLimit = s.portLimit := rfl

@[simp] theorem State.Of.setHostIn_ct (s : State.Of P) (h : List (HostAction.Of P)) : (s.setHostIn h).ct = s.ct := rfl
@[simp] theorem State.Of.setHostIn_dC (s : State.Of P) (h : List (HostAction.Of P)) : (s.setHostIn h).dC = s.dC := rfl
@[simp] theorem State.Of.setHostIn_dAddr8 (s : State.Of P) (h : List (HostAction.Of P)) :
    (s.setHostIn h).dAddr8 = s.dAddr8 := rfl
@[simp] theorem State.Of.setHostIn_dBuf (s : State.Of P) (h : List (HostAction.Of P)) :
    (s.setHostIn h).dBuf = s.dBuf := rfl
@[simp] theorem State.Of.setHostIn_dLen (s : State.Of P) (h : List (HostAction.Of P)) :
    (s.setHostIn h).dLen = s.dLen := rfl
@[simp] theorem State.Of.setHostIn_dRead (s : State.Of P) (h : List (HostAction.Of P)) :
    (s.setHostIn h).dRead = s.dRead := rfl
@[simp] theorem State.Of.setHostIn_dTen (s : State.Of P) (h : List (HostAction.Of P)) :
    (s.setHostIn h).dTen = s.dTen := rfl
@[simp] theorem State.Of.setHostIn_dProbe (s : State.Of P) (h : List (HostAction.Of P)) :
    (s.setHostIn h).dProbe = s.dProbe := rfl
@[simp] theorem State.Of.setHostIn_dInit (s : State.Of P) (h : List (HostAction.Of P)) :
    (s.setHostIn h).dInit = s.dInit := rfl
@[simp] theorem State.Of.setHostIn_words (s : State.Of P) (h : List (HostAction.Of P)) :
    (s.setHostIn h).words = s.words := rfl
@[simp] theorem State.Of.setHostIn_rem (s : State.Of P) (h : List (HostAction.Of P)) : (s.setHostIn h).rem = s.rem := rfl
@[simp] theorem State.Of.setHostIn_ptr (s : State.Of P) (h : List (HostAction.Of P)) : (s.setHostIn h).ptr = s.ptr := rfl
@[simp] theorem State.Of.setHostIn_stage (s : State.Of P) (h : List (HostAction.Of P)) :
    (s.setHostIn h).stage = s.stage := rfl
@[simp] theorem State.Of.setHostIn_polls (s : State.Of P) (h : List (HostAction.Of P)) :
    (s.setHostIn h).polls = s.polls := rfl
@[simp] theorem State.Of.setHostIn_snap (s : State.Of P) (h : List (HostAction.Of P)) :
    (s.setHostIn h).snap = s.snap := rfl
@[simp] theorem State.Of.setHostIn_errKind (s : State.Of P) (h : List (HostAction.Of P)) :
    (s.setHostIn h).errKind = s.errKind := rfl
@[simp] theorem State.Of.setHostIn_errDetail (s : State.Of P) (h : List (HostAction.Of P)) :
    (s.setHostIn h).errDetail = s.errDetail := rfl
@[simp] theorem State.Of.setHostIn_st (s : State.Of P) (h : List (HostAction.Of P)) : (s.setHostIn h).st = s.st := rfl
@[simp] theorem State.Of.setHostIn_mem (s : State.Of P) (h : List (HostAction.Of P)) : (s.setHostIn h).mem = s.mem := rfl
@[simp] theorem State.Of.setHostIn_hostIn (s : State.Of P) (h : List (HostAction.Of P)) : (s.setHostIn h).hostIn = h :=
    rfl
@[simp] theorem State.Of.setHostIn_rspPort (s : State.Of P) (h : List (HostAction.Of P)) :
    (s.setHostIn h).rspPort = s.rspPort := rfl
@[simp] theorem State.Of.setHostIn_trace (s : State.Of P) (h : List (HostAction.Of P)) :
    (s.setHostIn h).trace = s.trace := rfl
@[simp] theorem State.Of.setHostIn_regAnswers (s : State.Of P) (h : List (HostAction.Of P)) :
    (s.setHostIn h).regAnswers = s.regAnswers := rfl
@[simp] theorem State.Of.setHostIn_draws (s : State.Of P) (h : List (HostAction.Of P)) :
    (s.setHostIn h).draws = s.draws := rfl
@[simp] theorem State.Of.setHostIn_portLimit (s : State.Of P) (h : List (HostAction.Of P)) :
    (s.setHostIn h).portLimit = s.portLimit := rfl

@[simp] theorem State.Of.latch_ct (s : State.Of P) (d : Descriptor.Of P) : (s.latch d).ct = s.ct := rfl
@[simp] theorem State.Of.latch_dC (s : State.Of P) (d : Descriptor.Of P) : (s.latch d).dC = d.c := rfl
@[simp] theorem State.Of.latch_dAddr8 (s : State.Of P) (d : Descriptor.Of P) : (s.latch d).dAddr8 = d.addr8 := rfl
@[simp] theorem State.Of.latch_dBuf (s : State.Of P) (d : Descriptor.Of P) : (s.latch d).dBuf = d.buf := rfl
@[simp] theorem State.Of.latch_dLen (s : State.Of P) (d : Descriptor.Of P) : (s.latch d).dLen = d.len := rfl
@[simp] theorem State.Of.latch_dRead (s : State.Of P) (d : Descriptor.Of P) : (s.latch d).dRead = d.read := rfl
@[simp] theorem State.Of.latch_dTen (s : State.Of P) (d : Descriptor.Of P) : (s.latch d).dTen = d.ten := rfl
@[simp] theorem State.Of.latch_dProbe (s : State.Of P) (d : Descriptor.Of P) : (s.latch d).dProbe = d.probe := rfl
@[simp] theorem State.Of.latch_dInit (s : State.Of P) (d : Descriptor.Of P) : (s.latch d).dInit = d.init := rfl
@[simp] theorem State.Of.latch_words (s : State.Of P) (d : Descriptor.Of P) : (s.latch d).words = s.words := rfl
@[simp] theorem State.Of.latch_rem (s : State.Of P) (d : Descriptor.Of P) : (s.latch d).rem = s.rem := rfl
@[simp] theorem State.Of.latch_ptr (s : State.Of P) (d : Descriptor.Of P) : (s.latch d).ptr = s.ptr := rfl
@[simp] theorem State.Of.latch_stage (s : State.Of P) (d : Descriptor.Of P) : (s.latch d).stage = s.stage := rfl
@[simp] theorem State.Of.latch_polls (s : State.Of P) (d : Descriptor.Of P) : (s.latch d).polls = s.polls := rfl
@[simp] theorem State.Of.latch_snap (s : State.Of P) (d : Descriptor.Of P) : (s.latch d).snap = s.snap := rfl
@[simp] theorem State.Of.latch_errKind (s : State.Of P) (d : Descriptor.Of P) : (s.latch d).errKind = s.errKind := rfl
@[simp] theorem State.Of.latch_errDetail (s : State.Of P) (d : Descriptor.Of P) :
    (s.latch d).errDetail = s.errDetail := rfl
@[simp] theorem State.Of.latch_st (s : State.Of P) (d : Descriptor.Of P) : (s.latch d).st = s.st := rfl
@[simp] theorem State.Of.latch_mem (s : State.Of P) (d : Descriptor.Of P) : (s.latch d).mem = s.mem := rfl
@[simp] theorem State.Of.latch_hostIn (s : State.Of P) (d : Descriptor.Of P) : (s.latch d).hostIn = s.hostIn := rfl
@[simp] theorem State.Of.latch_rspPort (s : State.Of P) (d : Descriptor.Of P) : (s.latch d).rspPort = s.rspPort := rfl
@[simp] theorem State.Of.latch_trace (s : State.Of P) (d : Descriptor.Of P) : (s.latch d).trace = s.trace := rfl
@[simp] theorem State.Of.latch_regAnswers (s : State.Of P) (d : Descriptor.Of P) :
    (s.latch d).regAnswers = s.regAnswers := rfl
@[simp] theorem State.Of.latch_draws (s : State.Of P) (d : Descriptor.Of P) : (s.latch d).draws = s.draws := rfl
@[simp] theorem State.Of.latch_portLimit (s : State.Of P) (d : Descriptor.Of P) :
    (s.latch d).portLimit = s.portLimit := rfl

end Sys2Proof.Machine
end

