-- ==== Sys2Proof/Laws/Ops.lean ====
section
/-!
SUPPORT. One lemma per shared operation of Machine/Ops.lean: exactly when it goes on, and with what.
-/

namespace Sys2Proof.Machine

variable {P : Params}

@[simp] theorem andThen_next {α β : Type} (a : α) (f : α → Result β) : andThen (.next a) f = f a := rfl
@[simp] theorem andThen_fault {α β : Type} (r : Fault) (f : α → Result β) : andThen (.fault r) f = .fault r := rfl
@[simp] theorem andThen_refused {α β : Type} (r : Refusal) (f : α → Result β) :
    andThen (.refused r) f = .refused r := rfl

/-- A sequence goes on exactly when both parts do. -/
theorem andThen_eq_next {α β : Type} {o : Result α} {f : α → Result β} {b : β} :
    andThen o f = .next b ↔ ∃ a, o = .next a ∧ f a = .next b := by
  cases o <;> simp

/-- A port event goes on exactly when the environment completes it. -/
theorem portEvent_eq_next {p : Port} {e : Event.Of P} {s t : State.Of P} :
    portEvent p e s = .next t ↔ s.admits 1 = true ∧ t = s.record e := by
  unfold portEvent
  split <;> rename_i h <;> simp [h, eq_comm]

theorem portEvent_admitted {p : Port} {e : Event.Of P} {s : State.Of P} (h : s.admits 1 = true) :
    portEvent p e s = .next (s.record e) := portEvent_eq_next.mpr ⟨h, rfl⟩

/-- Completing `n + 1` events is completing one and then `n`. -/
theorem admits_record (s : State.Of P) (e : Event.Of P) (n : Nat) (h : s.admits (n + 1) = true) :
    (s.record e).admits n = true := by
  unfold State.Of.admits at *
  cases hl : s.portLimit <;> simp_all [State.Of.record]
  omega

theorem admits_mono {s : State.Of P} {n k : Nat} (h : s.admits n = true) (hk : k ≤ n) : s.admits k = true := by
  unfold State.Of.admits at *
  split <;> simp_all
  omega

/-- `RegRead` goes on exactly at an aligned address the environment answers. -/
theorem regRead_eq_next {a : Addr P} {s : State.Of P} {r : Word × State.Of P} :
    regRead a s = .next r ↔
      aligned4 a = true ∧ s.admits 1 = true ∧ r = (s.answer, (s.record (.rr a s.answer)).consume) := by
  unfold regRead
  split
  · simp only [andThen_eq_next, portEvent_eq_next]
    constructor
    · rintro ⟨t, ⟨h1, rfl⟩, h2⟩
      simp only [Host.Outcome.next.injEq] at h2
      exact ⟨‹_›, h1, h2.symm⟩
    · rintro ⟨_, h1, rfl⟩
      exact ⟨_, ⟨h1, rfl⟩, rfl⟩
  · simp_all

/-- `RegWrite` goes on exactly at an aligned address the environment admits. -/
theorem regWrite_eq_next {a : Addr P} {v : Word} {s t : State.Of P} :
    regWrite a v s = .next t ↔ aligned4 a = true ∧ s.admits 1 = true ∧ t = s.record (.rw a v) := by
  unfold regWrite
  split <;> simp_all [portEvent_eq_next]

/-- `MemRead(a, 1)` goes on exactly where the environment holds the byte and admits the read. -/
theorem memRead1_eq_next {a : Addr P} {s : State.Of P} {r : Byte × State.Of P} :
    memRead1 a s = .next r ↔
      ∃ b, memGet s.mem a.toNat = some b ∧ s.admits 1 = true ∧ r = (b, s.record (.mr1 a b)) := by
  unfold memRead1
  split
  · rename_i b hb
    simp only [andThen_eq_next, portEvent_eq_next, hb]
    constructor
    · rintro ⟨t, ⟨h1, rfl⟩, h2⟩
      simp only [Host.Outcome.next.injEq] at h2
      exact ⟨b, rfl, h1, h2.symm⟩
    · rintro ⟨b', hb', h1, rfl⟩
      simp only [Option.some.injEq] at hb'
      subst hb'
      exact ⟨_, ⟨h1, rfl⟩, rfl⟩
  · simp_all

/-- `MemRead(a, 4)` goes on exactly where the environment holds the four bytes and admits the read. -/
theorem memRead4_eq_next {a : Addr P} {s : State.Of P} {r : Word × State.Of P} :
    memRead4 a s = .next r ↔
      ∃ w, memWord s.mem a = some w ∧ s.admits 1 = true ∧ r = (w, s.record (.mr4 a w)) := by
  unfold memRead4
  split
  · rename_i b hb
    simp only [andThen_eq_next, portEvent_eq_next, hb]
    constructor
    · rintro ⟨t, ⟨h1, rfl⟩, h2⟩
      simp only [Host.Outcome.next.injEq] at h2
      exact ⟨b, rfl, h1, h2.symm⟩
    · rintro ⟨b', hb', h1, rfl⟩
      simp only [Option.some.injEq] at hb'
      subst hb'
      exact ⟨_, ⟨h1, rfl⟩, rfl⟩
  · simp_all

/-- `MemWrite(a, 1, b)` goes on exactly where the environment admits it, and stores the byte. -/
theorem memWrite1_eq_next {a : Addr P} {b : Byte} {s t : State.Of P} :
    memWrite1 a b s = .next t ↔
      s.admits 1 = true ∧ t = (s.record (.mw1 a b)).setMem (memPut s.mem a.toNat b) := by
  unfold memWrite1
  simp only [andThen_eq_next, portEvent_eq_next]
  constructor
  · rintro ⟨u, ⟨h1, rfl⟩, h2⟩
    simp only [Host.Outcome.next.injEq] at h2
    exact ⟨h1, h2.symm⟩
  · rintro ⟨h1, rfl⟩
    exact ⟨_, ⟨h1, rfl⟩, rfl⟩

/-- `MemWrite(a, 4, v)` goes on exactly where the environment admits it, and stores the word. -/
theorem memWrite4_eq_next {a : Addr P} {w : Word} {s t : State.Of P} :
    memWrite4 a w s = .next t ↔
      s.admits 1 = true ∧ t = (s.record (.mw4 a w)).setMem (memPutBytes s.mem a w 4) := by
  unfold memWrite4
  simp only [andThen_eq_next, portEvent_eq_next]
  constructor
  · rintro ⟨u, ⟨h1, rfl⟩, h2⟩
    simp only [Host.Outcome.next.injEq] at h2
    exact ⟨h1, h2.symm⟩
  · rintro ⟨h1, rfl⟩
    exact ⟨_, ⟨h1, rfl⟩, rfl⟩

/-- The events of a byte-wise store of `n` bytes, ascending. -/
def storeEvents (a : Addr P) (w : Word) : Nat → List (Event.Of P)
  | 0 => []
  | n + 1 => storeEvents a w n ++ [.mw1 (a + BitVec.ofNat P.addrW n) (byteOf w n)]

/-- A byte-wise store of `n` bytes goes on where `n` events are admitted: it records them in ascending order, stores the
bytes, and changes nothing else. -/
theorem memWriteBytes_admitted (a : Addr P) (w : Word) (s : State.Of P) (n : Nat) (h : s.admits n = true) :
    memWriteBytes a w s n = .next { s with
      trace := s.trace ++ storeEvents a w n
      portLimit := s.portLimit.map (· - n)
      mem := memPutBytes s.mem a w n } := by
  induction n with
  | zero => cases hl : s.portLimit <;> simp [memWriteBytes, storeEvents, memPutBytes, ← hl]
  | succ n ih =>
    rw [memWriteBytes, ih (admits_mono h (by omega)), andThen_next, memWrite1_eq_next]
    constructor
    · unfold State.Of.admits at *
      cases hl : s.portLimit <;> simp_all
      omega
    · cases hl : s.portLimit <;>
        simp [State.Of.record, State.Of.setMem, storeEvents, memPutBytes, List.append_assoc, Nat.sub_sub]

/-- Where a byte-wise store goes on at all, it was admitted in full. -/
theorem memWriteBytes_admits {a : Addr P} {w : Word} {s t : State.Of P} {n : Nat} (h : memWriteBytes a w s n = .next t) :
    s.admits n = true := by
  induction n generalizing t with
  | zero => unfold State.Of.admits; split <;> simp
  | succ n ih =>
    rw [memWriteBytes, andThen_eq_next] at h
    obtain ⟨u, hu, h⟩ := h
    have hn := ih hu
    rw [memWriteBytes_admitted a w s n hn, Host.Outcome.next.injEq] at hu
    subst hu
    rw [memWrite1_eq_next] at h
    have h1 := h.1
    unfold State.Of.admits at *
    cases hl : s.portLimit <;> simp_all
    omega

/-- A byte-wise store that the environment does not complete in full is stuck at the buffer port (20_memory.md R79). -/
theorem memWriteBytes_stuck (a : Addr P) (w : Word) (s : State.Of P) (n k : Nat) (hl : s.portLimit = some k) (h : k < n) :
    memWriteBytes a w s n = .fault (.portStuck .buffer) := by
  induction n with
  | zero => omega
  | succ n ih =>
    rw [memWriteBytes]
    by_cases hk : k < n
    · rw [ih hk, andThen_fault]
    · obtain rfl : k = n := by omega
      rw [memWriteBytes_admitted _ _ _ _ (by simp [State.Of.admits, hl])]
      simp [memWrite1, portEvent, State.Of.admits, hl]

/-- `CT[d_c]` is there exactly for an index of the table. -/
theorem withCtlr_eq_next {α : Type} {s : State.Of P} {f : Ctlr.Of P → Result α} {a : α} :
    withCtlr s f = .next a ↔ ∃ c, s.ct[s.dC.toNat]? = some c ∧ f c = .next a := by
  unfold withCtlr
  split <;> simp_all

theorem withCtlr_of {α : Type} {s : State.Of P} {f : Ctlr.Of P → Result α} {c : Ctlr.Of P}
    (h : s.ct[s.dC.toNat]? = some c) :
    withCtlr s f = f c := by simp [withCtlr, h]

/-- `PeriphReset` goes on exactly where the environment completes it. -/
theorem periphReset_eq_next {p : PeriphId P} {s t : State.Of P} :
    periphReset p s = .next t ↔ s.admits 1 = true ∧ t = s.record (.prst p) := portEvent_eq_next

/-- `Delay` goes on exactly where the time source completes it. -/
theorem delay_eq_next {s t : State.Of P} :
    delay s = .next t ↔ s.admits 1 = true ∧ t = s.record (.dly P.pollUs) := portEvent_eq_next

/-- A response goes on exactly where the host takes it: CORE is idle after it. -/
theorem respond_eq_next {k : Kind} {d : Word} {p : Bool} {s t : State.Of P} :
    respond k d p s = .next t ↔
      s.admits 1 = true ∧ t = ((s.record (.rsp k d p)).setRspPort (rspWord0 k.code p) d).goto .idle := by
  unfold respond
  simp only [andThen_eq_next, portEvent_eq_next]
  constructor
  · rintro ⟨u, ⟨h1, rfl⟩, h2⟩
    simp only [Host.Outcome.next.injEq] at h2
    exact ⟨h1, h2.symm⟩
  · rintro ⟨h1, rfl⟩
    exact ⟨_, ⟨h1, rfl⟩, rfl⟩

/-- A command is accepted exactly in IDLE. -/
theorem accept_eq_next {d : Descriptor.Of P} {s t : State.Of P} :
    accept d s = .next t ↔ s.st = .idle ∧ t = (s.latch d).goto .check := by
  unfold accept
  split <;> rename_i h <;> simp [h, eq_comm]

/-- A payload command is accepted exactly in IDLE with a length in its domain. -/
theorem acceptPayload_eq_next {d : Descriptor.Of P} {s t : State.Of P} :
    acceptPayload d s = .next t ↔
      s.st = .idle ∧ lengthInDomain d.len P = true ∧ t = (s.latch d).goto .check := by
  unfold acceptPayload
  split
  · rename_i h1
    split <;> rename_i h2 <;> simp only [accept_eq_next, h1, h2, true_and, reduceCtorEq, Bool.false_eq_true, false_and]
  · rename_i h1
    simp only [h1, reduceCtorEq, false_and]

/-- A word is pushed exactly with an entry, an aligned TX_FIFO and an admitting environment. -/
theorem pushTx_eq_next {w : Word} {s t : State.Of P} :
    pushTx w s = .next t ↔ ∃ c, s.ct[s.dC.toNat]? = some c ∧ aligned4 (txFifoAddr c) = true ∧
      s.admits 1 = true ∧ t = s.record (.rw (txFifoAddr c) w) := by
  unfold pushTx
  simp only [withCtlr_eq_next, regWrite_eq_next]

/-- An advance goes on exactly with a word left. -/
theorem advanceWord_eq_next {read : Bool} {s t : State.Of P} :
    advanceWord read s = .next t ↔ s.words ≠ 0 ∧
      t = if s.words = 1 then ((s.setCursor (s.words - 1) (s.ptr + 4)).setPolls 0).goto .doneWait
          else if read then ((s.setCursor (s.words - 1) (s.ptr + 4)).setPolls 0).goto .rdWait
          else (s.setCursor (s.words - 1) (s.ptr + 4)).goto .wrFetch := by
  unfold advanceWord
  by_cases h0 : s.words = 0
  · simp [h0]
  · simp only [h0, if_false, ne_eq, not_false_eq_true, true_and]
    by_cases h1 : s.words = 1
    · simp only [h1, if_true, Host.Outcome.next.injEq]
      exact eq_comm
    · cases read <;> simp only [h1, if_false, if_true, Bool.false_eq_true, Host.Outcome.next.injEq] <;> exact eq_comm

/-- A failing sample goes on exactly where its delay completes. -/
theorem pollMiss_eq_next {again : SeqState} {s t : State.Of P} :
    pollMiss again s = .next t ↔ s.admits 1 = true ∧ t = countSample again (s.record (.dly P.pollUs)) := by
  unfold pollMiss
  simp only [andThen_eq_next, delay_eq_next]
  constructor
  · rintro ⟨u, ⟨h1, rfl⟩, h2⟩
    simp only [Host.Outcome.next.injEq] at h2
    exact ⟨h1, h2.symm⟩
  · rintro ⟨h1, rfl⟩
    exact ⟨_, ⟨h1, rfl⟩, rfl⟩

end Sys2Proof.Machine
end

