-- ==== Sys2Proof/Laws/PerInstr.lean ====
section
/-!
SUPPORT. The family EncodeLength, one lemma per constructor: an instruction's encoding has as many words as its format
(30_encoding.md R100: every encoding has a fixed length).
-/

namespace Sys2Proof.Laws.EncodeLength

def Statement (i : Instr) : Prop := (encode i).length = i.format.words

theorem init (ctlr : BitVec 4) (ten : Bool) (len : BitVec 13) (addr7 : BitVec 7) (buf : Addr) :
    Statement (.init ctlr ten len addr7 buf) := rfl
theorem write (ctlr : BitVec 4) (ten : Bool) (len : BitVec 13) (addr7 : BitVec 7) (buf : Addr) :
    Statement (.write ctlr ten len addr7 buf) := rfl
theorem read (ctlr : BitVec 4) (ten : Bool) (len : BitVec 13) (addr7 : BitVec 7) (buf : Addr) :
    Statement (.read ctlr ten len addr7 buf) := rfl
theorem probe (ctlr : BitVec 4) (ten : Bool) (addr7 : BitVec 7) (buf : Addr) : Statement (.probe ctlr ten addr7 buf) :=
    rfl
theorem hdr1 (seq : BitVec 8) (ctlrId : BitVec 4) : Statement (.hdr1 seq ctlrId) := rfl
theorem hdr2 (sizeMinus1 : BitVec 12) : Statement (.hdr2 sizeMinus1) := rfl
theorem hdr3 (read : Bool) (addr7 : BitVec 7) : Statement (.hdr3 read addr7) := rfl
theorem rspOk (present : Bool) (detail : Word) : Statement (.rspOk present detail) := rfl
theorem rspTimeout (present : Bool) (detail : Word) : Statement (.rspTimeout present detail) := rfl
theorem rspNoAcknowledge (present : Bool) (detail : Word) : Statement (.rspNoAcknowledge present detail) := rfl
theorem rspArbitrationLost (present : Bool) (detail : Word) : Statement (.rspArbitrationLost present detail) := rfl
theorem rspUnsupportedAddressWidth (present : Bool) (detail : Word) :
    Statement (.rspUnsupportedAddressWidth present detail) := rfl
theorem rspBusNotReady (present : Bool) (detail : Word) : Statement (.rspBusNotReady present detail) := rfl
theorem seqIdle : Statement .seqIdle := rfl
theorem seqCheck : Statement .seqCheck := rfl
theorem clrstClrRd : Statement .clrstClrRd := rfl
theorem clrstClrWr : Statement .clrstClrWr := rfl
theorem hdrHdr1 : Statement .hdrHdr1 := rfl
theorem hdrHdr2 : Statement .hdrHdr2 := rfl
theorem hdrHdr3 : Statement .hdrHdr3 := rfl
theorem pushwWrFetch : Statement .pushwWrFetch := rfl
theorem pushwWrPush : Statement .pushwWrPush := rfl
theorem waittxWrWait : Statement .waittxWrWait := rfl
theorem waitrxRdWait : Statement .waitrxRdWait := rfl
theorem popwRdPop : Statement .popwRdPop := rfl
theorem popwRdStore : Statement .popwRdStore := rfl
theorem waitdoneDoneWait : Statement .waitdoneDoneWait := rfl
theorem recoverRecReset : Statement .recoverRecReset := rfl
theorem recoverRecCnfg : Statement .recoverRecCnfg := rfl
theorem recoverRecSlRd : Statement .recoverRecSlRd := rfl
theorem recoverRecSlWr : Statement .recoverRecSlWr := rfl
theorem seqRespond : Statement .seqRespond := rfl

end Sys2Proof.Laws.EncodeLength
end

