-- ==== Sys2Proof/Laws/Words.lean ====
section
/-!
SUPPORT. Bits and fields of the words that are written as concatenations: the assembled buffer word, CMD0 and RSP0.
-/

namespace Sys2Proof

/-- One bit of a concatenation, at a width written as a sum. -/
theorem getLsbD_append_at {m n : Nat} (x : BitVec m) (y : BitVec n) (i : Nat) :
    BitVec.getLsbD (w := m + n) (x ++ y) i = if i < n then y.getLsbD i else x.getLsbD (i - n) := by
  rw [BitVec.getLsbD_append]

/-- Bits of CMD0 (30_encoding.md Table 30-1). -/
theorem cmdWord0_getLsbD (op ctlr : BitVec 4) (ten : Bool) (len : BitVec 13) (addr7 : BitVec 7) (i : Nat) :
    (cmdWord0 op ctlr ten len addr7).getLsbD i =
      if i < 7 then addr7.getLsbD i
      else if i < 20 then len.getLsbD (i - 7)
      else if i < 23 then false
      else if i < 24 then (BitVec.ofBool ten).getLsbD (i - 23)
      else if i < 28 then ctlr.getLsbD (i - 24)
      else op.getLsbD (i - 28) := by
  have h : (cmdWord0 op ctlr ten len addr7).getLsbD i =
      BitVec.getLsbD (w := 4 + 4 + 1 + 3 + 13 + 7) (op ++ ctlr ++ BitVec.ofBool ten ++ 0#3 ++ len ++ addr7) i := rfl
  rw [h]
  simp only [getLsbD_append_at, BitVec.getLsbD_zero, Nat.sub_sub]
  split <;> [rfl; skip]
  repeat' split
  all_goals first | rfl | omega

/-- Bits of RSP0 (30_encoding.md R111). -/
theorem rspWord0_getLsbD (kind : BitVec 3) (present : Bool) (i : Nat) :
    (rspWord0 kind present).getLsbD i =
      if i < 3 then kind.getLsbD i else if i < 4 then (BitVec.ofBool present).getLsbD (i - 3) else false := by
  have h : (rspWord0 kind present).getLsbD i =
      BitVec.getLsbD (w := 28 + 1 + 3) (0#28 ++ BitVec.ofBool present ++ kind) i := rfl
  rw [h]
  simp only [getLsbD_append_at, BitVec.getLsbD_zero, Nat.sub_sub]
  repeat' split
  all_goals first | rfl | omega

/-- The fields of CMD0 (30_encoding.md Table 30-1). -/
theorem cmdWord0_fields (op ctlr : BitVec 4) (ten : Bool) (len : BitVec 13) (addr7 : BitVec 7) :
    (cmdWord0 op ctlr ten len addr7).extractLsb' 28 4 = op ∧
    (cmdWord0 op ctlr ten len addr7).extractLsb' 24 4 = ctlr ∧
    (cmdWord0 op ctlr ten len addr7).getLsbD 23 = ten ∧
    (cmdWord0 op ctlr ten len addr7).extractLsb' 20 3 = 0 ∧
    (cmdWord0 op ctlr ten len addr7).extractLsb' 7 13 = len ∧
    (cmdWord0 op ctlr ten len addr7).extractLsb' 0 7 = addr7 := by
  refine ⟨?_, ?_, ?_, ?_, ?_, ?_⟩
  case refine_3 => simp only [cmdWord0_getLsbD]; simp
  all_goals
    apply BitVec.eq_of_getLsbD_eq
    intro i hi
    simp only [BitVec.getLsbD_extractLsb', hi, decide_true, Bool.true_and, cmdWord0_getLsbD, BitVec.ofNat_eq_ofNat,
      BitVec.getLsbD_zero]
    repeat' split
    all_goals first | omega | (congr 1; omega) | rfl

namespace Machine

/-- The final word of the payload, with a tail (41_word_mover.md R154, R157). -/
theorem partialFinal_iff {words : BitVec 11} {rem : BitVec 2} :
    partialFinal words rem = true ↔ words = 1 ∧ rem ≠ 0 := by
  simp only [partialFinal, Bool.and_eq_true, decide_eq_true_eq]

theorem partialFinal_false_iff {words : BitVec 11} {rem : BitVec 2} :
    partialFinal words rem = false ↔ ¬(words = 1 ∧ rem ≠ 0) := by
  rw [← partialFinal_iff, Bool.not_eq_true]

/-- Bits of the word of four bytes (20_memory.md R72). -/
theorem wordOf_getLsbD (b0 b1 b2 b3 : Byte) (i : Nat) :
    (wordOf b0 b1 b2 b3).getLsbD i =
      if i < 8 then b0.getLsbD i else if i < 16 then b1.getLsbD (i - 8)
      else if i < 24 then b2.getLsbD (i - 16) else b3.getLsbD (i - 24) := by
  have h : (wordOf b0 b1 b2 b3).getLsbD i = BitVec.getLsbD (w := 8 + 8 + 8 + 8) (b3 ++ b2 ++ b1 ++ b0) i := rfl
  rw [h]
  simp only [getLsbD_append_at, Nat.sub_sub]
  repeat' split
  all_goals first | rfl | omega

/-- The bytes of the word of four bytes. -/
theorem byteOf_wordOf (b0 b1 b2 b3 : Byte) :
    byteOf (wordOf b0 b1 b2 b3) 0 = b0 ∧ byteOf (wordOf b0 b1 b2 b3) 1 = b1 ∧
    byteOf (wordOf b0 b1 b2 b3) 2 = b2 ∧ byteOf (wordOf b0 b1 b2 b3) 3 = b3 := by
  refine ⟨?_, ?_, ?_, ?_⟩
  all_goals
    apply BitVec.eq_of_getLsbD_eq
    intro i hi
    simp only [byteOf, BitVec.getLsbD_extractLsb', hi, decide_true, Bool.true_and, wordOf_getLsbD]
    repeat' split
    all_goals first | omega | (congr 1; omega)

/-- A word is the word of its bytes. -/
theorem wordOf_byteOf (w : Word) : wordOf (byteOf w 0) (byteOf w 1) (byteOf w 2) (byteOf w 3) = w := by
  apply BitVec.eq_of_getLsbD_eq
  intro i hi
  simp only [wordOf_getLsbD, byteOf, BitVec.getLsbD_extractLsb']
  repeat' split
  all_goals
    rw [decide_eq_true (by omega), Bool.true_and]
    congr 1
    omega

end Machine
end Sys2Proof
end

