-- ==== Sys2Proof/Machine/Visit.lean ====
section
/-!
DEFINITION. One visit of the sequencer at any parameters (00_scope.md R6): what `step` does at the defaults, as
`step_eq_visit` of Laws/Visits.lean says.
-/

namespace Sys2Proof.Machine

/-- The visit of the state `st` selects, one row of Table 44-1 (44_transactions.md R209, R210). -/
def State.Of.visit {P : Params} (s : State.Of P) : Result (State.Of P) :=
  match s.st with
  | .idle => execSeqIdle s
  | .check => execSeqCheck s
  | .clrRd => execClrstClrRd s
  | .clrWr => execClrstClrWr s
  | .hdr1 => execHdrHdr1 s
  | .hdr2 => execHdrHdr2 s
  | .hdr3 => execHdrHdr3 s
  | .wrFetch => execPushwWrFetch s
  | .wrPush => execPushwWrPush s
  | .wrWait => execWaittxWrWait s
  | .rdWait => execWaitrxRdWait s
  | .rdPop => execPopwRdPop s
  | .rdStore => execPopwRdStore s
  | .doneWait => execWaitdoneDoneWait s
  | .recReset => execRecoverRecReset s
  | .recCnfg => execRecoverRecCnfg s
  | .recSlRd => execRecoverRecSlRd s
  | .recSlWr => execRecoverRecSlWr s
  | .respond => execSeqRespond s

end Sys2Proof.Machine
end

