-- ==== Sys2Proof/Laws/Visits.lean ====
section
/-!
SUPPORT. For every visit of the sequencer, exactly when it goes on and to what state; a step is the visit `st` selects.
-/

namespace Sys2Proof.Machine

/-- A register at an aligned base has an aligned address: every offset of Table 20-1 is a multiple of 4. -/
theorem aligned4_add {b o : Addr} (h : b.toNat % 4 = 0) (ho : o.toNat % 4 = 0) : aligned4 (b + o) = true := by
  simp only [aligned4, BitVec.toNat_add, decide_eq_true_eq, Config.params_addrW]
  omega

/-- The registers of the FIFO block, at an aligned `ctrl_base`. -/
theorem fifoBlock_aligned {c : Ctlr} (h : c.ctrlBase.toNat % 4 = 0) :
    aligned4 (txFifoAddr c) = true ∧ aligned4 (rxFifoAddr c) = true ∧ aligned4 (fifoStatusAddr c) = true ∧
      aligned4 (intStatusAddr c) = true :=
  ⟨aligned4_add h (by decide), aligned4_add h (by decide), aligned4_add h (by decide), aligned4_add h (by decide)⟩

/-- The registers of the control block, at an aligned `regs_base`. -/
theorem controlBlock_aligned {c : Ctlr} (h : c.regsBase.toNat % 4 = 0) :
    aligned4 (cnfgAddr c) = true ∧ aligned4 (slCnfgAddr c) = true :=
  ⟨aligned4_add h (by split <;> decide), aligned4_add h (by decide)⟩

theorem regRead_admitted {a : Addr} {s : State} (ha : aligned4 a = true) (h : s.admits 1 = true) :
    regRead a s = .next (s.answer, (s.record (.rr a s.answer)).consume) := regRead_eq_next.mpr ⟨ha, h, rfl⟩

/-- The loop set-up, field by field (41_word_mover.md R150). -/
theorem enterLoop_eq (s : State) : enterLoop s = { s with
    words := BitVec.ofNat 11 (ceil4 s.dLen.toNat), rem := BitVec.ofNat 2 s.dLen.toNat, ptr := s.dBuf
    st := if s.dRead then .rdWait else .wrFetch
    polls := if s.dRead then 0 else s.polls } := by
  cases h : s.dRead <;> simp [enterLoop, h, State.Of.setCursor, State.Of.setRem, State.Of.setPolls, State.Of.goto]

/-- The end of RECOVER, field by field (43_recovery.md R196). -/
theorem finishRecovery_eq (c : Ctlr) (s : State) : finishRecovery c s = { s with
    st := .respond
    ct := if s.dInit then s.ct.setIfInBounds s.dC.toNat { c with inited := true } else s.ct } := by
  unfold finishRecovery
  split <;> simp_all [State.Of.goto, State.Of.setTable]

/-- The bound of a counted sample: `polls` is wide enough for `N_POLL` (10_state.md R30). -/
theorem polls_succ {P : Params} {p : BitVec P.pollsW} (h : p.toNat < P.nPoll) : (p + 1).toNat = p.toNat + 1 := by
  have hw : P.nPoll < 2 ^ P.pollsW := Nat.lt_log2_self
  have h1 : (1 : BitVec P.pollsW).toNat = 1 := by simp [Params.pollsW]
  rw [BitVec.toNat_add, h1, Nat.mod_eq_of_lt (by omega)]

/-- A failing sample inside the budget: the poll goes on. -/
theorem countSample_again {P : Params} {again : SeqState} {s : State.Of P} (h : s.polls.toNat + 1 < P.nPoll) :
    countSample again s = (s.setPolls (s.polls + 1)).goto again :=
  if_neg (by rw [State.Of.setPolls_polls, polls_succ (by omega)]; omega)

/-- The failing sample that exhausts the budget: Timeout. -/
theorem countSample_expired {P : Params} {again : SeqState} {s : State.Of P} (h : s.polls.toNat + 1 = P.nPoll) :
    countSample again s = raiseError .timeout timeoutDetail (s.setPolls (s.polls + 1)) :=
  if_pos (by rw [State.Of.setPolls_polls, polls_succ (by omega), h])

/-- The bytes of a pad word below `rem` are the payload's (41_word_mover.md R154). -/
theorem byteOf_padWord (r : BitVec 2) (w d : Word) (j : Nat) (hj : j < r.toNat) :
    byteOf (padWord r w d) j = byteOf w j := by
  apply BitVec.eq_of_getLsbD_eq
  intro i hi
  have hr : r.toNat < 4 := r.isLt
  have hb : (BitVec.ofNat 32 (2 ^ (8 * r.toNat) - 1)).getLsbD (8 * j + i) = true := by
    simp [BitVec.getLsbD_ofNat]
    omega
  simp only [byteOf, BitVec.getLsbD_extractLsb', padWord, BitVec.getLsbD_or, BitVec.getLsbD_and, BitVec.getLsbD_not, hb]
  simp

/-- What a fetch puts into `stage`, and that it changes nothing else but the draw counter (41_word_mover.md R154). -/
theorem stageWord_spec (w : Word) (s : State) :
    ∃ g d, stageWord w s = { s with stage := g, draws := d } ∧
      (partialFinal s.words s.rem = false → g = w ∧ d = s.draws) ∧
      (partialFinal s.words s.rem = true → ∀ j < s.rem.toNat, byteOf g j = byteOf w j) := by
  unfold stageWord
  cases h : partialFinal s.words s.rem
  · exact ⟨w, s.draws, rfl, fun _ => ⟨rfl, rfl⟩, fun e => absurd e (by decide)⟩
  · exact ⟨_, _, rfl, fun e => absurd e (by decide), fun _ j hj => byteOf_padWord _ _ _ _ hj⟩

/-- Byte `j` of a word the environment holds is the byte at `a + j` (20_memory.md R72). -/
theorem memWord_byte {m : List Host.Cell} {a : Addr} {w : Word} (h : memWord m a = some w) {j : Nat} (hj : j < 4) :
    memGet m (a + BitVec.ofNat Config.params.addrW j).toNat = some (byteOf w j) := by
  unfold memWord at h
  split at h
  · rename_i b0 b1 b2 b3 g0 g1 g2 g3
    cases h
    have := byteOf_wordOf b0 b1 b2 b3
    interval_cases j
    · simp only [BitVec.add_zero, this]
      exact g0
    · simp only [this]
      exact g1
    · simp only [this]
      exact g2
    · simp only [this]
      exact g3
  · cases h

/-- Four byte reads record four events and give the word at `a` (41_word_mover.md R153). -/
theorem memReadBytes_eq {a : Addr} {s : State} {r : Word × State} (h : memReadBytes a s = .next r) :
    memWord s.mem a = some r.1 ∧ ∃ es n, r.2 = { s with trace := s.trace ++ es, portLimit := n } ∧
      es = (List.range 4).map fun j => .mr1 (a + BitVec.ofNat Config.params.addrW j) (byteOf r.1 j) := by
  simp only [memReadBytes, andThen_eq_next, memRead1_eq_next] at h
  obtain ⟨⟨b0, s0⟩, ⟨c0, g0, _, e0⟩, ⟨b1, s1⟩, ⟨c1, g1, _, e1⟩, ⟨b2, s2⟩, ⟨c2, g2, _, e2⟩,
    ⟨b3, s3⟩, ⟨c3, g3, _, e3⟩, e⟩ := h
  cases e0; cases e1; cases e2; cases e3; cases e
  have g1' : memGet s.mem (a + 1).toNat = some b1 := g1
  have g2' : memGet s.mem (a + 2).toNat = some b2 := g2
  have g3' : memGet s.mem (a + 3).toNat = some b3 := g3
  have hb := byteOf_wordOf b0 b1 b2 b3
  refine ⟨by simp only [memWord, g0, g1', g2', g3'], [.mr1 a b0, .mr1 (a + 1) b1, .mr1 (a + 2) b2, .mr1 (a + 3) b3],
    (((s.portLimit.map (· - 1)).map (· - 1)).map (· - 1)).map (· - 1), ?_, ?_⟩
  · simp only [State.Of.record, List.append_assoc, List.cons_append, List.nil_append]
  · simp only [List.range, List.range.loop, List.map, hb, BitVec.add_zero]
    rfl

/-- Four byte reads of which the environment completes fewer are stuck at the buffer port (20_memory.md R79). -/
theorem memReadBytes_stuck {a : Addr} {s : State} {w : Word} {k : Nat} (hw : memWord s.mem a = some w)
    (hl : s.portLimit = some k) (h : k < 4) : memReadBytes a s = .fault (.portStuck .buffer) := by
  have hm (e : Event) (t : State) : (t.record e).mem = t.mem := rfl
  have hp (e : Event) (t : State) : (t.record e).portLimit = t.portLimit.map (· - 1) := rfl
  unfold memWord at hw
  split at hw
  · rename_i b0 b1 b2 b3 g0 g1 g2 g3
    obtain rfl | rfl | rfl | rfl : k = 0 ∨ k = 1 ∨ k = 2 ∨ k = 3 := by omega
    all_goals
      simp only [memReadBytes, memRead1, portEvent, State.Of.admits, hm, hp, hl, g0, g1, g2, g3, Option.map_some,
        andThen_next, andThen_fault, Nat.reduceLeDiff, Nat.reduceSub, decide_true, decide_false, Bool.false_eq_true,
        if_true, if_false]
  · cases hw

/-- What WR_FETCH takes and where it leaves CORE; its events are buffer reads, none for PROBE (R152 to R154, R163). -/
theorem execPushwWrFetch_next {s t : State} (h : execPushwWrFetch s = .next t) :
    ∃ w es n d, t = (stageWord w { s with trace := s.trace ++ es, portLimit := n, draws := d }).goto .wrPush ∧
      (s.dProbe = true → es = [] ∧ n = s.portLimit) ∧
      (s.dProbe = false → memWord s.mem s.ptr = some w ∧ d = s.draws ∧
        ((s.ptr.toNat % 4 = 0 ∧ es = [.mr4 s.ptr w]) ∨
          es = (List.range 4).map fun j => .mr1 (s.ptr + BitVec.ofNat Config.params.addrW j) (byteOf w j))) := by
  simp only [execPushwWrFetch, andThen_eq_next] at h
  obtain ⟨⟨w, u⟩, h1, h2⟩ := h
  cases h2
  unfold fetchWord at h1
  split at h1
  · rename_i hp
    cases h1
    exact ⟨_, [], s.portLimit, s.draws + 1, by simp only [List.append_nil]; rfl, fun _ => ⟨rfl, rfl⟩,
      fun e => by rw [hp] at e; cases e⟩
  · rename_i hp
    split at h1
    · rename_i ha
      simp only [aligned4, decide_eq_true_eq] at ha
      rw [memRead4_eq_next] at h1
      obtain ⟨w', hw, _, e⟩ := h1
      cases e
      exact ⟨w, _, _, s.draws, rfl, fun e => absurd e hp, fun _ => ⟨hw, rfl, .inl ⟨ha, rfl⟩⟩⟩
    · obtain ⟨hw, es, n, e1, e2⟩ := memReadBytes_eq h1
      simp only at e1 e2 hw
      subst e1
      exact ⟨w, es, n, s.draws, rfl, fun e => absurd e hp, fun _ => ⟨hw, rfl, .inr e2⟩⟩

/-- How many bytes a store writes (41_word_mover.md R157). -/
def storeBytes (s : State) : Nat := if partialFinal s.words s.rem then s.rem.toNat else 4

/-- A store: the bytes, at `ptr` on, and only buffer-write events (41_word_mover.md R157). -/
theorem storeWord_next {s t : State} (h : storeWord s = .next t) :
    ∃ es n, t = { s with
        trace := s.trace ++ es, portLimit := n, mem := memPutBytes s.mem s.ptr s.stage (storeBytes s) } ∧
      (es = [.mw4 s.ptr s.stage] ∨ es = storeEvents s.ptr s.stage (storeBytes s)) := by
  unfold storeWord at h
  unfold storeBytes
  split at h
  · rename_i hp
    rw [memWriteBytes_admitted _ _ _ _ (memWriteBytes_admits h)] at h
    cases h
    simp only [hp, if_true]
    exact ⟨_, _, rfl, .inr rfl⟩
  · rename_i hp
    simp only [hp]
    split at h
    · rw [memWrite4_eq_next] at h
      obtain ⟨_, rfl⟩ := h
      exact ⟨_, _, rfl, .inl rfl⟩
    · rw [memWriteBytes_admitted _ _ _ _ (memWriteBytes_admits h)] at h
      cases h
      exact ⟨_, _, rfl, .inr rfl⟩

/-- A register read visit goes on with the answer consumed, at an entry and an aligned address. -/
theorem readVisit_next {f : Ctlr → Addr} {g : Word × State → Result State} {s t : State} :
    (withCtlr s fun c => andThen (regRead (f c) s) g) = .next t ↔
      ∃ c, s.ct[s.dC.toNat]? = some c ∧ aligned4 (f c) = true ∧ s.admits 1 = true ∧
        g (s.answer, (s.record (.rr (f c) s.answer)).consume) = .next t := by
  simp only [withCtlr_eq_next, andThen_eq_next, regRead_eq_next]
  constructor
  · rintro ⟨c, hc, r, ⟨ha, h1, rfl⟩, hg⟩
    exact ⟨c, hc, ha, h1, hg⟩
  · rintro ⟨c, hc, ha, h1, hg⟩
    exact ⟨c, hc, _, ⟨ha, h1, rfl⟩, hg⟩

/-- A register write visit goes on with the write recorded, at an entry and an aligned address. -/
theorem writeVisit_next {f : Ctlr → Addr} {v : Word} {g : Ctlr → State → State} {s t : State} :
    (withCtlr s fun c => andThen (regWrite (f c) v s) fun u => .next (g c u)) = .next t ↔
      ∃ c, s.ct[s.dC.toNat]? = some c ∧ aligned4 (f c) = true ∧ s.admits 1 = true ∧
        t = g c (s.record (.rw (f c) v)) := by
  simp only [withCtlr_eq_next, andThen_eq_next, regWrite_eq_next]
  constructor
  · rintro ⟨c, hc, r, ⟨ha, h1, rfl⟩, hg⟩
    cases hg
    exact ⟨c, hc, ha, h1, rfl⟩
  · rintro ⟨c, hc, ha, h1, rfl⟩
    exact ⟨c, hc, _, ⟨ha, h1, rfl⟩, rfl⟩

/-- A push visit goes on with the write to TX_FIFO recorded. -/
theorem pushVisit_next {w : Word} {g : State → State} {s t : State} :
    (andThen (pushTx w s) fun u => .next (g u)) = .next t ↔
      ∃ c, s.ct[s.dC.toNat]? = some c ∧ aligned4 (txFifoAddr c) = true ∧ s.admits 1 = true ∧
        t = g (s.record (.rw (txFifoAddr c) w)) := by
  simp only [andThen_eq_next, pushTx_eq_next]
  constructor
  · rintro ⟨r, ⟨c, hc, ha, h1, rfl⟩, hg⟩
    cases hg
    exact ⟨c, hc, ha, h1, rfl⟩
  · rintro ⟨c, hc, ha, h1, rfl⟩
    exact ⟨_, ⟨c, hc, ha, h1, rfl⟩, rfl⟩

/-- A step is the visit at the default parameters (00_scope.md R6, 44_transactions.md R210). -/
theorem step_eq_visit (s : State) : step s = s.visit := by
  unfold step fetch State.Of.visit
  cases s.st <;> rfl

theorem step_idle {s : State} (h : s.st = .idle) : step s = execSeqIdle s := by
  simp [step, fetch, h, SeqState.instr, exec]

theorem step_check {s : State} (h : s.st = .check) : step s = execSeqCheck s := by
  simp [step, fetch, h, SeqState.instr, exec]

/-- Where CLR_RD goes on (44_transactions.md R206). -/
theorem step_clrRd {s t : State} (h : s.st = .clrRd) : step s = .next t ↔
    ∃ c, s.ct[s.dC.toNat]? = some c ∧ aligned4 (intStatusAddr c) = true ∧ s.admits 1 = true ∧
      t = ((s.record (.rr (intStatusAddr c) s.answer)).consume.setSnap s.answer).goto .clrWr := by
  simp only [step, fetch, h, SeqState.instr, exec, execClrstClrRd, readVisit_next, Host.Outcome.next.injEq,
    eq_comm (b := t)]

/-- Where CLR_WR goes on (44_transactions.md R206). -/
theorem step_clrWr {s t : State} (h : s.st = .clrWr) : step s = .next t ↔
    ∃ c, s.ct[s.dC.toNat]? = some c ∧ aligned4 (intStatusAddr c) = true ∧ s.admits 1 = true ∧
      t = (s.record (.rw (intStatusAddr c) s.snap)).goto .hdr1 := by
  simp only [step, fetch, h, SeqState.instr, exec, execClrstClrWr]
  exact writeVisit_next

/-- Where HDR1 goes on (40_header_encoder.md R140). -/
theorem step_hdr1 {s t : State} (h : s.st = .hdr1) : step s = .next t ↔
    ∃ c, s.ct[s.dC.toNat]? = some c ∧ aligned4 (txFifoAddr c) = true ∧ s.admits 1 = true ∧
      t = (s.record (.rw (txFifoAddr c) (hdr1Word Config.params.pktSeqId c.id))).goto .hdr2 := by
  simp only [step, fetch, h, SeqState.instr, exec, execHdrHdr1, execHdr1, withCtlr_eq_next, pushVisit_next]
  constructor
  · rintro ⟨c, hc, c', hc', ha, h1, rfl⟩
    rw [hc] at hc'
    cases hc'
    exact ⟨c, hc, ha, h1, rfl⟩
  · rintro ⟨c, hc, ha, h1, rfl⟩
    exact ⟨c, hc, c, hc, ha, h1, rfl⟩

/-- Where HDR2 goes on (40_header_encoder.md R140, R144). -/
theorem step_hdr2 {s t : State} (h : s.st = .hdr2) : step s = .next t ↔
    ∃ c, s.ct[s.dC.toNat]? = some c ∧ aligned4 (txFifoAddr c) = true ∧ s.admits 1 = true ∧
      t = ((if s.dLen = 0 then s.drawn else s).record
        (.rw (txFifoAddr c) (hdr2Word (sizeField s.dLen s.pad)))).goto .hdr3 := by
  simp only [step, fetch, h, SeqState.instr, exec, execHdrHdr2, execHdr2, pushVisit_next]
  split <;> rfl

/-- Where HDR3 goes on (40_header_encoder.md R140, 41_word_mover.md R150). -/
theorem step_hdr3 {s t : State} (h : s.st = .hdr3) : step s = .next t ↔
    ∃ c, s.ct[s.dC.toNat]? = some c ∧ aligned4 (txFifoAddr c) = true ∧ s.admits 1 = true ∧
      t = enterLoop (s.record (.rw (txFifoAddr c) (hdr3Word s.dAddr8 s.dRead))) := by
  simp only [step, fetch, h, SeqState.instr, exec, execHdrHdr3, pushVisit_next]

theorem step_wrFetch {s : State} (h : s.st = .wrFetch) : step s = execPushwWrFetch s := by
  simp [step, fetch, h, SeqState.instr, exec]

/-- Where WR_PUSH goes on (41_word_mover.md R152). -/
theorem step_wrPush {s t : State} (h : s.st = .wrPush) : step s = .next t ↔
    ∃ c, s.ct[s.dC.toNat]? = some c ∧ aligned4 (txFifoAddr c) = true ∧ s.admits 1 = true ∧
      t = ((s.record (.rw (txFifoAddr c) s.stage)).setPolls 0).goto .wrWait := by
  simp only [step, fetch, h, SeqState.instr, exec, execPushwWrPush, pushVisit_next]

/-- Where WR_WAIT goes on (42_poller.md R171). -/
theorem step_wrWait {s t : State} (h : s.st = .wrWait) : step s = .next t ↔
    ∃ c, s.ct[s.dC.toNat]? = some c ∧ aligned4 (fifoStatusAddr c) = true ∧ s.admits 1 = true ∧
      (if txReady s.answer then advanceWord false (s.record (.rr (fifoStatusAddr c) s.answer)).consume
        else pollMiss .wrWait (s.record (.rr (fifoStatusAddr c) s.answer)).consume) = .next t := by
  simp only [step, fetch, h, SeqState.instr, exec, execWaittxWrWait, readVisit_next]

/-- Where RD_WAIT goes on (42_poller.md R172). -/
theorem step_rdWait {s t : State} (h : s.st = .rdWait) : step s = .next t ↔
    ∃ c, s.ct[s.dC.toNat]? = some c ∧ aligned4 (fifoStatusAddr c) = true ∧ s.admits 1 = true ∧
      (if rxReady s.answer then .next ((s.record (.rr (fifoStatusAddr c) s.answer)).consume.goto .rdPop)
        else pollMiss .rdWait (s.record (.rr (fifoStatusAddr c) s.answer)).consume) = .next t := by
  simp only [step, fetch, h, SeqState.instr, exec, execWaitrxRdWait, readVisit_next]

/-- Where RD_POP goes on (41_word_mover.md R156). -/
theorem step_rdPop {s t : State} (h : s.st = .rdPop) : step s = .next t ↔
    ∃ c, s.ct[s.dC.toNat]? = some c ∧ aligned4 (rxFifoAddr c) = true ∧ s.admits 1 = true ∧
      t = ((s.record (.rr (rxFifoAddr c) s.answer)).consume.setStage s.answer).goto .rdStore := by
  simp only [step, fetch, h, SeqState.instr, exec, execPopwRdPop, readVisit_next, Host.Outcome.next.injEq,
    eq_comm (b := t)]

theorem step_rdStore {s : State} (h : s.st = .rdStore) : step s = execPopwRdStore s := by
  simp [step, fetch, h, SeqState.instr, exec]

/-- Where DONE_WAIT goes on (42_poller.md R173). -/
theorem step_doneWait {s t : State} (h : s.st = .doneWait) : step s = .next t ↔
    ∃ c, s.ct[s.dC.toNat]? = some c ∧ aligned4 (intStatusAddr c) = true ∧ s.admits 1 = true ∧
      judgeSnapshot s.answer ((s.record (.rr (intStatusAddr c) s.answer)).consume.setSnap s.answer) = .next t := by
  simp only [step, fetch, h, SeqState.instr, exec, execWaitdoneDoneWait, readVisit_next]

/-- Where REC_RESET goes on (43_recovery.md R191). -/
theorem step_recReset {s t : State} (h : s.st = .recReset) : step s = .next t ↔
    ∃ c, s.ct[s.dC.toNat]? = some c ∧ s.admits 1 = true ∧ t = (s.record (.prst c.periphId)).goto .recCnfg := by
  simp only [step, fetch, h, SeqState.instr, exec, execRecoverRecReset, withCtlr_eq_next, andThen_eq_next,
    periphReset_eq_next]
  constructor
  · rintro ⟨c, hc, r, ⟨h1, rfl⟩, hg⟩
    cases hg
    exact ⟨c, hc, h1, rfl⟩
  · rintro ⟨c, hc, h1, rfl⟩
    exact ⟨c, hc, _, ⟨h1, rfl⟩, rfl⟩

/-- Where REC_CNFG goes on (43_recovery.md R192). -/
theorem step_recCnfg {s t : State} (h : s.st = .recCnfg) : step s = .next t ↔
    ∃ c, s.ct[s.dC.toNat]? = some c ∧ aligned4 (cnfgAddr c) = true ∧ s.admits 1 = true ∧
      t = if c.isDvc then finishRecovery c (s.record (.rw (cnfgAddr c) Config.params.cnfgPacketValue))
          else (s.record (.rw (cnfgAddr c) Config.params.cnfgPacketValue)).goto .recSlRd := by
  simp only [step, fetch, h, SeqState.instr, exec, execRecoverRecCnfg]
  exact writeVisit_next (g := fun c u => if c.isDvc then finishRecovery c u else u.goto .recSlRd)

/-- Where REC_SL_RD goes on (43_recovery.md R193). -/
theorem step_recSlRd {s t : State} (h : s.st = .recSlRd) : step s = .next t ↔
    ∃ c, s.ct[s.dC.toNat]? = some c ∧ aligned4 (slCnfgAddr c) = true ∧ s.admits 1 = true ∧
      t = ((s.record (.rr (slCnfgAddr c) s.answer)).consume.setStage s.answer).goto .recSlWr := by
  simp only [step, fetch, h, SeqState.instr, exec, execRecoverRecSlRd, readVisit_next, Host.Outcome.next.injEq,
    eq_comm (b := t)]

/-- Where REC_SL_WR goes on (43_recovery.md R193). -/
theorem step_recSlWr {s t : State} (h : s.st = .recSlWr) : step s = .next t ↔
    ∃ c, s.ct[s.dC.toNat]? = some c ∧ aligned4 (slCnfgAddr c) = true ∧ s.admits 1 = true ∧
      t = finishRecovery c (s.record (.rw (slCnfgAddr c) (s.stage ||| Config.params.slNewslMask))) := by
  simp only [step, fetch, h, SeqState.instr, exec, execRecoverRecSlWr]
  exact writeVisit_next (g := finishRecovery)

/-- Where RESPOND goes on (44_transactions.md R207, R208). -/
theorem step_respond {s t : State} (h : s.st = .respond) : step s = .next t ↔
    s.admits 1 = true ∧ t = ((s.record (.rsp s.errKind s.errDetail (presentBit s.dProbe s.errKind))).setRspPort
      (rspWord0 s.errKind.code (presentBit s.dProbe s.errKind)) s.errDetail).goto .idle := by
  simp only [step, fetch, h, SeqState.instr, exec, execSeqRespond, respond_eq_next]

/-- A descriptor that acceptance can latch (44_transactions.md R200, 30_encoding.md R117). -/
def Descriptor.Of.Legal (d : Descriptor) : Prop :=
  (d.init = false → lengthInDomain d.len = true) ∧ d.addr8.getLsbD 0 = d.read ∧
    (d.probe = true → d.len = 1 ∧ d.read = false ∧ d.init = false)

theorem addr8Of_low : ∀ (a : BitVec 7) (r : Bool), (addr8Of a r).getLsbD 0 = r := by decide

/-- What IDLE can do: wait, accept a command, take a configuration write (44_transactions.md R200, R211). -/
theorem execSeqIdle_next {s t : State} (h : execSeqIdle s = .next t) :
    (s.hostIn = [] ∧ t = s) ∨
    (∃ rest d, s.st = .idle ∧ d.Legal ∧ t = ((s.setHostIn rest).latch d).goto .check) ∨
    (∃ rest index r old, s.st = .idle ∧ s.ct[index]? = some old ∧ r.id.toNat = index ∧
      t = (s.setHostIn rest).setTable (s.ct.setIfInBounds index (configured old r))) := by
  unfold execSeqIdle at h
  split at h
  · cases h
    exact .inl ⟨‹_›, rfl⟩
  · rename_i a rest _
    cases a with
    | command c0 c1 =>
      simp only [hostAction, commandWords] at h
      split at h
      · split at h
        · obtain ⟨h1, rfl⟩ := accept_eq_next.mp h
          exact .inr (.inl ⟨rest, _, h1, ⟨fun e => absurd e (by simp [initDescriptor]),
            addr8Of_low _ _, fun e => absurd e (by simp [initDescriptor])⟩, rfl⟩)
        · obtain ⟨h1, h2, rfl⟩ := acceptPayload_eq_next.mp h
          exact .inr (.inl ⟨rest, _, h1, ⟨fun _ => h2,
            addr8Of_low _ _, fun e => absurd e (by simp [writeDescriptor])⟩, rfl⟩)
        · obtain ⟨h1, h2, rfl⟩ := acceptPayload_eq_next.mp h
          exact .inr (.inl ⟨rest, _, h1, ⟨fun _ => h2,
            addr8Of_low _ _, fun e => absurd e (by simp [readDescriptor])⟩, rfl⟩)
        · obtain ⟨h1, rfl⟩ := accept_eq_next.mp h
          exact .inr (.inl ⟨rest, _, h1, ⟨fun _ => show lengthInDomain 1 = true by decide,
            addr8Of_low _ _, fun _ => ⟨rfl, rfl, rfl⟩⟩, rfl⟩)
      · cases h
    | cfgWrite index r =>
      simp only [hostAction, cfgWrite] at h
      split at h
      · split at h
        · split at h
          · cases h
            exact .inr (.inr ⟨rest, index, r, _, ‹_›, ‹_›, ‹_›, rfl⟩)
          · cases h
        · cases h
      · cases h

/-- What CHECK does (44_transactions.md R201): it always goes on. -/
theorem execSeqCheck_next {s t : State} (h : execSeqCheck s = .next t) :
    (∃ k, (k = .busNotReady ∨ k = .unsupportedAddressWidth) ∧ t = (s.setErr k 0).goto .respond) ∨
    (∃ c, s.ct[s.dC.toNat]? = some c ∧ s.dInit = true ∧ t = (s.setErr .ok 0).goto .recReset) ∨
    (∃ c, s.ct[s.dC.toNat]? = some c ∧ s.dInit = false ∧ c.inited = true ∧ s.dTen = false ∧ t = s.goto .clrRd) := by
  unfold execSeqCheck at h
  split at h
  · cases h
    exact .inl ⟨_, .inl rfl, rfl⟩
  · rename_i c hc
    split at h
    · rename_i h1
      cases h
      exact .inr (.inl ⟨c, hc, h1, rfl⟩)
    · rename_i h1
      split at h
      · cases h
        exact .inl ⟨_, .inl rfl, rfl⟩
      · rename_i h2
        split at h
        · cases h
          exact .inl ⟨_, .inr rfl, rfl⟩
        · rename_i h3
          cases h
          exact .inr (.inr ⟨c, hc, by simpa using h1, by simpa using h2, by simpa using h3, rfl⟩)

/-- What a failing sample can do: the poll goes on with one sample more counted, or a Timeout is raised (R170). -/
theorem pollMiss_next {again : SeqState} {s t : State} (h : pollMiss again s = .next t) :
    ((s.polls + 1).toNat ≠ Config.params.nPoll ∧
      t = ((s.record (.dly Config.params.pollUs)).setPolls (s.polls + 1)).goto again) ∨
    ((s.polls + 1).toNat = Config.params.nPoll ∧
      t = raiseError .timeout timeoutDetail ((s.record (.dly Config.params.pollUs)).setPolls (s.polls + 1))) := by
  rw [pollMiss_eq_next] at h
  obtain ⟨_, rfl⟩ := h
  by_cases hn : (s.polls + 1).toNat = Config.params.nPoll
  · right
    refine ⟨hn, ?_⟩
    simp only [countSample, State.Of.setPolls_polls, State.Of.record_polls, hn, if_true]
  · left
    refine ⟨hn, ?_⟩
    simp only [countSample, State.Of.setPolls_polls, State.Of.record_polls, hn, if_false]

/-- What a snapshot can lead to (42_poller.md R173, R174). -/
theorem judgeSnapshot_next {v : Word} {s t : State} (h : judgeSnapshot v s = .next t) :
    (noAck v = true ∧ t = raiseError .noAcknowledge (neg32 v) s) ∨
    (noAck v = false ∧ arbLost v = true ∧ t = raiseError .arbitrationLost (neg32 v) s) ∨
    (noAck v = false ∧ arbLost v = false ∧ xferDone v = true ∧ t = (s.setErr .ok 0).goto .respond) ∨
    (noAck v = false ∧ arbLost v = false ∧ xferDone v = false ∧ pollMiss .doneWait s = .next t) := by
  unfold judgeSnapshot at h
  cases h1 : noAck v
  · cases h2 : arbLost v
    · cases h3 : xferDone v <;> simp only [h1, h2, h3, if_true, Bool.false_eq_true, if_false] at h
      · exact .inr (.inr (.inr ⟨rfl, rfl, rfl, h⟩))
      · cases h
        exact .inr (.inr (.inl ⟨rfl, rfl, rfl, rfl⟩))
    · simp only [h1, h2, if_true, Bool.false_eq_true, if_false] at h
      cases h
      exact .inr (.inl ⟨rfl, rfl, rfl⟩)
  · simp only [h1, if_true] at h
    cases h
    exact .inl ⟨rfl, rfl⟩

/-- RD_STORE: the store and then the advance (41_word_mover.md R157, R159). -/
theorem execPopwRdStore_next {s t : State} (h : execPopwRdStore s = .next t) :
    s.words ≠ 0 ∧ ∃ es n, t = { s with
        trace := s.trace ++ es, portLimit := n, mem := memPutBytes s.mem s.ptr s.stage (storeBytes s)
        words := s.words - 1, ptr := s.ptr + 4, polls := 0
        st := if s.words = 1 then .doneWait else .rdWait } ∧
      (es = [.mw4 s.ptr s.stage] ∨ es = storeEvents s.ptr s.stage (storeBytes s)) := by
  simp only [execPopwRdStore, andThen_eq_next] at h
  obtain ⟨u, hu, h⟩ := h
  obtain ⟨es, n, rfl, hes⟩ := storeWord_next hu
  rw [advanceWord_eq_next] at h
  obtain ⟨hw, rfl⟩ := h
  refine ⟨hw, es, n, ?_, hes⟩
  simp only [if_true]
  split <;> rfl

end Sys2Proof.Machine
end

