-- ==== Sys2Proof/Tests/Slice0.lean ====
section
/-!
SUPPORT. The model's own tests. Expected values are those of spec/95_test_vectors.md (E, H, M, W, X, A, K are its vectors)
or are computed by hand from the rule named. `test_…` checks a decoding, a
check or one visit; `witness_…` shows a state and operands that meet the hypotheses of the statement it is named after.
-/

namespace Sys2Proof.Tests

open Sys2Proof.Machine

/-! ## Parameters and well-formedness -/

/-- 00_scope.md R6: the constraints on the parameters hold of the defaults. -/
theorem test_parameter_constraints : Config.params.constraintsHold = true := by decide
/-- 00_scope.md Table 00-1: `N_POLL` at the defaults. -/
theorem test_n_poll : Config.params.nPoll = 1001 := by decide

/-- Parameters other than the defaults (00_scope.md R6), which meet the constraints too. -/
def otherParams : Params :=
  { nCtlr := 2, addrW := 16, periphIdW := 4, pinmuxW := 3, fifoDepth := 4, timeoutUs := 20, pollUs := 5, payloadW := 4
    pktSeqId := 5, protocolI2c := 2, hdr1ProtLsb := 0, hdr1CtlrLsb := 20, hdr1SeqLsb := 8, hdr2SizeLsb := 8
    hdr3AddrLsb := 4, hdr3ReadBit := 31, offTxFifo := 0x80, offRxFifo := 0x84, offFifoStatus := 0x88, offIntStatus := 0x8C
    offCnfg := 0x90, offCnfgDvc := 0x94, offSlCnfg := 0x98, fsTxEmptyLsb := 8, fsRxFullLsb := 16, isXferDoneBit := 1
    isNoackBit := 2, isArbLostBit := 3, cnfgPacketValue := 7, slNewslMask := 0x10 }

/-- A budget of more samples than 10 bits count. -/
def longBudget : Params := { timeoutUs := 20000 }

/-- The constraints hold of them; `N_POLL`, the width of `polls` and `LEN_MAX` follow them. -/
theorem test_other_params : otherParams.constraintsHold = true ∧ otherParams.nPoll = 5 ∧ otherParams.lenMax = 16 ∧
    otherParams.pollsW = 3 ∧ longBudget.constraintsHold = true ∧ longBudget.nPoll = 2001 ∧ longBudget.pollsW = 11 ∧
    lengthInDomain 16 otherParams = true ∧ lengthInDomain 17 otherParams = false := by decide

/-- R107 to R109 at other positions, encoded and decoded. -/
theorem test_other_headers : hdr1Word 5 3 otherParams = 0x00300502 ∧ hdr2Word 15 otherParams = 0x00000F00 ∧
    hdr3Word 0xA1 true otherParams = 0x80000A10 ∧
    decode .hdr1 [0x00300502] otherParams = .ok (.hdr1 5 3) ∧ decode .hdr2 [0xF00] otherParams = .ok (.hdr2 15) ∧
    decode .hdr3 [0x80000A10] otherParams = .ok (.hdr3 true 0x50) ∧
    decode .hdr1 [0x00013010] otherParams = .error .headerBits := by decide

/-- 30_encoding.md R117, Table 30-3: one ill-formed term per check. -/
theorem test_wf_write_len_0 : (Instr.write 0 false 0 0x50 0).WellFormed = false := by decide
theorem test_wf_write_len_4097 : (Instr.write 0 false 4097 0x50 0).WellFormed = false := by decide
theorem test_wf_read_len_0 : (Instr.read 0 false 0 0x50 0).WellFormed = false := by decide
theorem test_wf_read_len_4097 : (Instr.read 0 false 4097 0x50 0).WellFormed = false := by decide
theorem test_wf_len_4096 : (Instr.read 1 false 4096 0x7F 0).WellFormed = true := by decide
theorem test_wf_ok_detail : (Instr.rspOk true 1).WellFormed = false := by decide
theorem test_wf_timeout_present : (Instr.rspTimeout true 0xFFFFFFFF).WellFormed = false := by decide
theorem test_wf_timeout_detail : (Instr.rspTimeout false 0).WellFormed = false := by decide
theorem test_wf_noack_present : (Instr.rspNoAcknowledge true 0xFFFFFFF8).WellFormed = false := by decide
theorem test_wf_noack_detail : (Instr.rspNoAcknowledge false 0xFFFFFFFC).WellFormed = false := by decide
theorem test_wf_arb_present : (Instr.rspArbitrationLost true 0xFFFFFFFC).WellFormed = false := by decide
theorem test_wf_arb_noack_bit : (Instr.rspArbitrationLost false 0xFFFFFFF4).WellFormed = false := by decide
theorem test_wf_width_detail : (Instr.rspUnsupportedAddressWidth false 1).WellFormed = false := by decide
theorem test_wf_width_present : (Instr.rspUnsupportedAddressWidth true 0).WellFormed = false := by decide
theorem test_wf_busy_detail : (Instr.rspBusNotReady false 1).WellFormed = false := by decide
theorem test_wf_busy_present : (Instr.rspBusNotReady true 0).WellFormed = false := by decide
theorem test_wf_a9_a10 : (Instr.rspNoAcknowledge false 0xFFFFFFF8).WellFormed = true ∧
    (Instr.rspArbitrationLost false 0xFFFFFF7C).WellFormed = true := by decide

/-! ## Decoding: every constructor, from words the spec writes out -/

/-- E1, E2. -/
theorem test_decode_init : decode .cmd [0x10000000, 7] = .ok (.init 0 false 0 0 7) ∧
    decode .cmd [0x13000000, 0] = .ok (.init 3 false 0 0 0) := by decide
/-- E3, E8. -/
theorem test_decode_write : decode .cmd [0x200001D0, 0x80001000] = .ok (.write 0 false 3 0x50 0x80001000) ∧
    decode .cmd [0x208000D0, 0] = .ok (.write 0 true 1 0x50 0) := by decide
/-- E4, E9. -/
theorem test_decode_read : decode .cmd [0x30000250, 0x80002000] = .ok (.read 0 false 4 0x50 0x80002000) ∧
    decode .cmd [0x3108007F, 0] = .ok (.read 1 false 4096 0x7F 0) := by decide
/-- E6, E10, and the remark below E17. -/
theorem test_decode_probe : decode .cmd [0x4300001C, 0] = .ok (.probe 3 false 0x1C 0) ∧
    decode .cmd [0x40800050, 0] = .ok (.probe 0 true 0x50 0) ∧
    decode .cmd [0x400FFF50, 0] = .ok (.probe 0 false 0x50 0) := by decide
/-- E13, E14, E15. -/
theorem test_decode_reserved : decode .cmd [0, 0] = .error .reservedOp ∧
    decode .cmd [0x50000000, 0] = .error .reservedOp ∧ decode .cmd [0xF0000000, 0] = .error .reservedOp ∧
    decode .cmd [0x201000D0, 0] = .error .reservedBits ∧ decode .cmd [0x10000000] = .error .wordCount := by decide
/-- H1, H4; a protocol type other than 1 is no header word 1. -/
theorem test_decode_hdr1 : decode .hdr1 [0x00010010] = .ok (.hdr1 1 0) ∧
    decode .hdr1 [0x00013010] = .ok (.hdr1 1 3) ∧ decode .hdr1 [0x00010020] = .error .headerBits := by decide
/-- H7, H14; bit 12 is outside the field. -/
theorem test_decode_hdr2 : decode .hdr2 [0x00000002] = .ok (.hdr2 2) ∧
    decode .hdr2 [0x00000FFF] = .ok (.hdr2 4095) ∧ decode .hdr2 [0x00001000] = .error .headerBits := by decide
/-- H15, H20; the two direction bits must agree. -/
theorem test_decode_hdr3 : decode .hdr3 [0x000000A0] = .ok (.hdr3 false 0x50) ∧
    decode .hdr3 [0x000800FF] = .ok (.hdr3 true 0x7F) ∧
    decode .hdr3 [0x000000A1] = .error .headerDirection := by decide
/-- A7, A8. -/
theorem test_decode_rsp_ok : decode .rsp [0, 0] = .ok (.rspOk false 0) ∧
    decode .rsp [8, 0] = .ok (.rspOk true 0) := by decide
/-- A11. -/
theorem test_decode_rsp_timeout : decode .rsp [1, 0xFFFFFFFF] = .ok (.rspTimeout false 0xFFFFFFFF) := by decide
/-- A9. -/
theorem test_decode_rsp_noack : decode .rsp [2, 0xFFFFFFF8] = .ok (.rspNoAcknowledge false 0xFFFFFFF8) := by decide
/-- A10. -/
theorem test_decode_rsp_arb : decode .rsp [3, 0xFFFFFF7C] = .ok (.rspArbitrationLost false 0xFFFFFF7C) := by decide
/-- A2. -/
theorem test_decode_rsp_width : decode .rsp [4, 0] = .ok (.rspUnsupportedAddressWidth false 0) := by decide
/-- A1; kinds 6 and 7 and bits 31:4 stand for no response. -/
theorem test_decode_rsp_busy : decode .rsp [5, 0] = .ok (.rspBusNotReady false 0) ∧
    decode .rsp [6, 0] = .error .responseBits ∧ decode .rsp [0x15, 0] = .error .responseBits := by decide
/-- 10_state.md Table 10-3: the 19 codes, and the first that is never taken. -/
theorem test_decode_states : decode .useq [0] = .ok .seqIdle ∧ decode .useq [1] = .ok .seqCheck ∧
    decode .useq [2] = .ok .clrstClrRd ∧ decode .useq [3] = .ok .clrstClrWr ∧ decode .useq [4] = .ok .hdrHdr1 ∧
    decode .useq [5] = .ok .hdrHdr2 ∧ decode .useq [6] = .ok .hdrHdr3 ∧ decode .useq [7] = .ok .pushwWrFetch ∧
    decode .useq [8] = .ok .pushwWrPush ∧ decode .useq [9] = .ok .waittxWrWait ∧
    decode .useq [10] = .ok .waitrxRdWait ∧ decode .useq [11] = .ok .popwRdPop ∧
    decode .useq [12] = .ok .popwRdStore ∧ decode .useq [13] = .ok .waitdoneDoneWait ∧
    decode .useq [14] = .ok .recoverRecReset ∧ decode .useq [15] = .ok .recoverRecCnfg ∧
    decode .useq [16] = .ok .recoverRecSlRd ∧ decode .useq [17] = .ok .recoverRecSlWr ∧
    decode .useq [18] = .ok .seqRespond ∧ decode .useq [19] = .error .stateCode := by decide
/-- The host's question: a row of 5 bits, a command, a header word and a response. -/
theorem test_decode_table_words : decodeTableWord 8 13 = some .waitdoneDoneWait ∧
    decodeTableWord 32 0x200001D0 = some (.write 0 false 3 0x50 0) ∧
    decodeTableWord 32 0x00013010 = some (.hdr1 1 3) ∧ decodeTableWord 32 2 = some (.rspNoAcknowledge false 0) ∧
    decodeTableWord 32 0x000800A1 = some (.hdr3 true 0x50) ∧ decodeTableWord 32 0xFFE = some (.hdr2 4094) := by decide

/-! ## The states the tests start from -/

/-- `CT[0]` of the vectors: the standard controller of 43_recovery.md R190, with FIFO block at 0x7000C050 (H23). -/
def ctlr0 : Ctlr :=
  { id := 0, periphId := 12, speedHz := 400000, pinmux := 1, regsBase := 0x7000C000, ctrlBase := 0x7000C050
    singleClk := false, isDvc := false, inited := true }

/-- `CT[3]` of the vectors: the DVC variant of X4. -/
def ctlr3 : Ctlr :=
  { id := 3, periphId := 47, speedHz := 100000, pinmux := 0, regsBase := 0x7000D000, ctrlBase := 0x7000D060
    singleClk := true, isDvc := true, inited := true }

/-- Entry 1 configured but not initialised, entry 2 zero. -/
def table : Vector Ctlr Config.params.nCtlr := #v[ctlr0, { ctlr0 with id := 1, inited := false }, Ctlr.zero, ctlr3]

/-- The source bytes of section 2.3: `B[0x1000 + i] = 0x11 * (i + 1)`. -/
def sourceBytes : List Host.Cell :=
  [(0x1000, 0x11), (0x1001, 0x22), (0x1002, 0x33), (0x1003, 0x44), (0x1004, 0x55), (0x1005, 0x66), (0x1006, 0x77),
   (0x1007, 0x88), (0x1008, 0x99)]

/-- A WRITE of 6 bytes at 0x1000 to device 0x50 of controller 0, in sequencer state `t` (vector M5). -/
def writing (t : SeqState) : State :=
  { State.reset with
    ct := table, st := t, mem := sourceBytes, dC := 0, dAddr8 := 0xA0, dBuf := 0x1000, dLen := 6
    words := 2, rem := 2, ptr := 0x1000 }

/-- A READ of 4 bytes to 0x2000 from device 0x50, in state `t` (vector M11). -/
def reading (t : SeqState) : State :=
  { State.reset with
    ct := table, st := t, dC := 0, dAddr8 := 0xA1, dBuf := 0x2000, dLen := 4, dRead := true
    words := 1, rem := 0, ptr := 0x2000, stage := 0x44332211 }

/-- Recovery after a NoAcknowledge with snapshot 8 (A9), on controller 0. -/
def recovering (t : SeqState) : State :=
  { writing t with words := 0, ptr := 0x1008, errKind := .noAcknowledge, errDetail := 0xFFFFFFF8 }

/-- Recovery in an INIT of the DVC controller 3 (Q4), which is not yet initialised. -/
def initialising (t : SeqState) : State :=
  { State.reset with
    ct := #v[ctlr0, Ctlr.zero, Ctlr.zero, { ctlr3 with inited := false }], st := t, dC := 3, dInit := true }

/-- An idle CORE to which the host presents `a`. -/
def presented (a : HostAction) : State := { writing .idle with hostIn := [a] }

/-- The next state, or the same state where there is none. -/
def after (s : State) : State :=
  match step s with
  | .next t => t
  | .fault _ | .refused _ => s

/-- The port events of the next step, from an empty trace. -/
def events (s : State) : List Event := (after s).trace

/-! ## One visit at a time -/

/-- E3, E4, E6: the latched descriptor. -/
theorem test_accept_write : let t := after (presented (.command 0x200001D0 0x80001000))
    t.st = .check ∧ t.dC = 0 ∧ t.dAddr8 = 0xA0 ∧ t.dLen = 3 ∧ t.dBuf = 0x80001000 ∧ t.dRead = false := by decide
theorem test_accept_read : let t := after (presented (.command 0x30000250 0x80002000))
    t.st = .check ∧ t.dAddr8 = 0xA1 ∧ t.dLen = 4 ∧ t.dRead = true ∧ t.dProbe = false := by decide
theorem test_accept_probe : let t := after (presented (.command 0x4300001C 0))
    t.st = .check ∧ t.dC = 3 ∧ t.dAddr8 = 0x38 ∧ t.dLen = 1 ∧ t.dRead = false ∧ t.dProbe = true := by decide
/-- E2. -/
theorem test_accept_init : let t := after (presented (.command 0x13000000 0))
    t.st = .check ∧ t.dC = 3 ∧ t.dInit = true ∧ t.hostIn = [] := by decide
/-- E16, E17, E13. -/
theorem test_refused_commands : step (presented (.command 0x20000050 0)) = .refused .lengthOutOfDomain ∧
    step (presented (.command 0x300800D0 0)) = .refused .lengthOutOfDomain ∧
    step (presented (.command 0 0)) = .refused .reservedEncoding := ⟨rfl, rfl, rfl⟩
/-- 44_transactions.md R211: between commands no port event. -/
theorem test_idle_waits : step (writing .idle) = .next (writing .idle) := rfl
/-- A1, A2, A4; X7; R201 test 5. -/
theorem test_check_bus_not_ready : let t := after { writing .check with dC := 1 }
    t.st = .respond ∧ t.errKind = .busNotReady ∧ t.errDetail = 0 := by decide
theorem test_check_order : (after { writing .check with dTen := true }).errKind = .unsupportedAddressWidth ∧
    (after { writing .check with dTen := true, dC := 1 }).errKind = .busNotReady ∧
    (after { writing .check with dC := 5 }).errKind = .busNotReady ∧
    (after { writing .check with dC := 7, dInit := true }).st = .respond ∧
    (after { writing .check with dInit := true }).st = .recReset ∧ (after (writing .check)).st = .clrRd := by decide
/-- K3. -/
theorem test_clr_rd : let s := { writing .clrRd with regAnswers := [0x8C] }
    events s = [.rr 0x7000C068 0x8C] ∧ (after s).snap = 0x8C := by decide
theorem test_clr_wr : events { writing .clrWr with snap := 0x8C } = [.rw 0x7000C068 0x8C] := by decide
/-- H4, H5, H16: the header states. -/
theorem test_hdr1 : events { writing .hdr1 with dC := 3 } = [.rw 0x7000D060 0x00013010] := by decide
theorem test_hdr2 : events { writing .hdr2 with dLen := 1 } = [.rw 0x7000C050 0] ∧
    events { writing .hdr2 with dLen := 4096 } = [.rw 0x7000C050 0xFFF] := by decide
/-- H16, and the loop set-up of H13. -/
theorem test_hdr3 : events (reading .hdr3) = [.rw 0x7000C050 0x000800A1] := by decide
theorem test_hdr3_loop : let t := after { reading .hdr3 with dLen := 4095, polls := 9 }
    t.words = 1024 ∧ t.rem = 3 ∧ t.ptr = 0x2000 ∧ t.st = .rdWait ∧ t.polls = 0 := by decide
/-- H3, H19: header words as instructions. -/
theorem test_exec_hdr1 : (match exec (.hdr1 1 2) (writing .hdr1) with | .next t => t.trace | _ => [])
    = [.rw 0x7000C050 0x00012010] := by decide
theorem test_exec_hdr2 : (match exec (.hdr2 2) (writing .hdr2) with | .next t => t.trace | _ => [])
    = [.rw 0x7000C050 2] := by decide
theorem test_exec_hdr3 : (match exec (.hdr3 false 0x7F) (writing .hdr3) with | .next t => t.trace | _ => [])
    = [.rw 0x7000C050 0x000000FE] := by decide
/-- M1, M3: aligned and byte-wise fetch. -/
theorem test_fetch_aligned : events (writing .wrFetch) = [.mr4 0x1000 0x44332211] ∧
    (after (writing .wrFetch)).stage = 0x44332211 := by decide
theorem test_fetch_bytes : let s := { writing .wrFetch with ptr := 0x1001 }
    events s = [.mr1 0x1001 0x22, .mr1 0x1002 0x33, .mr1 0x1003 0x44, .mr1 0x1004 0x55] ∧
    (after s).stage = 0x55443322 := by decide
/-- M1: the push. -/
theorem test_push : let s := { writing .wrPush with stage := 0x44332211, polls := 5 }
    events s = [.rw 0x7000C050 0x44332211] ∧ (after s).polls = 0 ∧ (after s).st = .wrWait := by decide
/-- W5, W6: 0x90 is not ready, 0x8F is. -/
theorem test_wait_tx : (after { writing .wrWait with regAnswers := [0x90] }).st = .wrWait ∧
    (after { writing .wrWait with regAnswers := [0x8F] }).st = .wrFetch ∧
    (after { writing .wrWait with regAnswers := [0x80], words := 1 }).st = .doneWait := by decide
/-- W3, W4 at the last sample: `polls` is 1000. -/
theorem test_wait_tx_last : (after { writing .wrWait with regAnswers := [0x70], polls := 1000 }).errKind = .timeout ∧
    (after { writing .wrWait with regAnswers := [0x70], polls := 999 }).st = .wrWait ∧
    (after { writing .wrWait with regAnswers := [0x80], polls := 1000 }).st = .wrFetch := by decide
/-- W9. -/
theorem test_wait_rx : events { reading .rdWait with regAnswers := [0xFFFFFFF0] } =
    [.rr 0x7000C060 0xFFFFFFF0, .dly 10] ∧ (after { reading .rdWait with regAnswers := [1] }).st = .rdPop := by decide
/-- W10 at the last sample. -/
theorem test_wait_rx_last : let t := after { reading .rdWait with regAnswers := [0x80], polls := 1000 }
    t.st = .recReset ∧ t.errKind = .timeout ∧ t.errDetail = 0xFFFFFFFF := by decide
/-- M11. -/
theorem test_pop : let s := { reading .rdPop with regAnswers := [0x44332211], stage := 0 }
    events s = [.rr 0x7000C054 0x44332211] ∧ (after s).stage = 0x44332211 ∧ (after s).st = .rdStore := by decide
/-- M10: a partial final word; M13: an unaligned one. -/
theorem test_store_partial : let s := { reading .rdStore with dLen := 3, rem := 3 }
    events s = [.mw1 0x2000 0x11, .mw1 0x2001 0x22, .mw1 0x2002 0x33] ∧
    (after s).mem = [(0x2000, 0x11), (0x2001, 0x22), (0x2002, 0x33)] := by decide
theorem test_store_full : events (reading .rdStore) = [.mw4 0x2000 0x44332211] ∧
    events { reading .rdStore with ptr := 0x2002 } =
      [.mw1 0x2002 0x11, .mw1 0x2003 0x22, .mw1 0x2004 0x33, .mw1 0x2005 0x44] ∧
    (after (reading .rdStore)).st = .doneWait := by decide
/-- W17, W18, W20, W11: the order of the tests, and the details. -/
theorem test_wait_done : (after { writing .doneWait with regAnswers := [0x8C] }).errDetail = 0xFFFFFF74 ∧
    (after { writing .doneWait with regAnswers := [0x84] }).errKind = .arbitrationLost ∧
    (after { writing .doneWait with regAnswers := [0x80000008] }).errDetail = 0x7FFFFFF8 ∧
    (after { writing .doneWait with regAnswers := [0x80] }).st = .respond := by decide
/-- W19, W21, W22: other bits are ignored; expiry; an error bit in the last sample beats expiry. -/
theorem test_wait_done_last : (after { writing .doneWait with regAnswers := [3] }).st = .doneWait ∧
    (after { writing .doneWait with regAnswers := [0], polls := 1000 }).errKind = .timeout ∧
    (after { writing .doneWait with regAnswers := [4], polls := 1000 }).errKind = .arbitrationLost := by decide
/-- X2, X4: the visits of RECOVER. -/
theorem test_rec_reset : events (recovering .recReset) = [.prst 12] ∧
    events (initialising .recReset) = [.prst 47] := by decide
theorem test_rec_cnfg : events (recovering .recCnfg) = [.rw 0x7000C000 0xC00] ∧
    events (initialising .recCnfg) = [.rw 0x7000D040 0xC00] ∧ (after (initialising .recCnfg)).st = .respond := by decide
theorem test_rec_sl_rd : events { recovering .recSlRd with regAnswers := [3] } = [.rr 0x7000C020 3] := by decide
theorem test_rec_sl_wr : events { recovering .recSlWr with stage := 3 } = [.rw 0x7000C020 7] := by decide
/-- X5, Q4: INIT sets `inited` of its entry at the end of recovery. -/
theorem test_init_sets_inited : ((after (initialising .recCnfg)).ct[3]?.map (·.inited)) = some true ∧
    (after { recovering .recSlWr with stage := 3 }).ct = table := by decide
/-- A8, A9: the response of a PROBE that ended OK and of a WRITE that did not. -/
theorem test_respond : (after { writing .respond with dProbe := true }).rspPort = some (8, 0) ∧
    (after (recovering .respond)).rspPort = some (2, 0xFFFFFFF8) ∧ (after (recovering .respond)).st = .idle := by decide
/-- The response words of A7, A11, A9, A10, A2, A1, as delivered. -/
def delivered (i : Instr) : Option (Word × Word) :=
  match exec i (writing .respond) with
  | .next t => t.rspPort
  | .fault _ | .refused _ => none
theorem test_rsp_ok : delivered (.rspOk false 0) = some (0, 0) := by decide
theorem test_rsp_timeout : delivered (.rspTimeout false 0xFFFFFFFF) = some (1, 0xFFFFFFFF) := by decide
theorem test_rsp_noack : delivered (.rspNoAcknowledge false 0xFFFFFFF8) = some (2, 0xFFFFFFF8) := by decide
theorem test_rsp_arb : delivered (.rspArbitrationLost false 0xFFFFFF7C) = some (3, 0xFFFFFF7C) := by decide
theorem test_rsp_width : delivered (.rspUnsupportedAddressWidth false 0) = some (4, 0) := by decide
theorem test_rsp_busy : delivered (.rspBusNotReady false 0) = some (5, 0) := by decide
/-- 00_scope.md R8, the `neg32` table of section 2.4. -/
theorem test_neg32 : neg32 0x88 = 0xFFFFFF78 ∧ neg32 0x80000008 = 0x7FFFFFF8 ∧ neg32 0 = 0 := by decide
/-- What the host places runs as the very next step. -/
theorem test_place_command : (after (State.reset.withFetchWord 32 0x200001D0)).dLen = 3 := by decide
theorem test_place_rows : events (State.reset.withFetchWord 32 0x00013010) = [.rw 0 0x00013010] ∧
    events (State.reset.withFetchWord 32 0x00000A1E) = [.rw 0 0x00000A1E] ∧
    events (State.reset.withFetchWord 32 0x000800A1) = [.rw 0 0x000800A1] ∧
    events (State.reset.withFetchWord 32 8) = [.rsp .ok 0 true] ∧
    events (State.reset.withFetchWord 8 14) = [.prst 0] ∧
    events (State.reset.withFetchWord 8 13) = [.rr 0x18 0, .dly 10] := by decide

/-! ## The machine at other parameters (00_scope.md R6) -/

/-- Two entries, a standard controller with bases near the top of a 16-bit space and a DVC variant. -/
def otherTable : Vector (Ctlr.Of otherParams) otherParams.nCtlr :=
  #v[{ id := 0, periphId := 12, speedHz := 400000, pinmux := 1, regsBase := 0xFF80, ctrlBase := 0xC050
       singleClk := false, isDvc := false, inited := true },
     { id := 1, periphId := 7, speedHz := 100000, pinmux := 0, regsBase := 0xD000, ctrlBase := 0xD060
       singleClk := true, isDvc := true, inited := true }]

/-- A WRITE of 6 bytes at 0x1000 to device 0x50 of controller 0, in state `t`. -/
def otherAt (t : SeqState) : State.Of otherParams :=
  { State.resetOf otherParams with
    ct := otherTable, st := t, dAddr8 := 0xA0, dBuf := 0x1000, dLen := 6, words := 2, rem := 2, ptr := 0x1000 }

/-- The port events of a visit, from an empty trace. -/
def eventsOf {P : Params} : Result (State.Of P) → List (Event.Of P)
  | .next t => t.trace
  | .fault _ | .refused _ => []

/-- Every register is accessed at the offset its parameter gives, modulo `2^ADDR_W`, with the values they give. -/
theorem test_other_offsets :
    eventsOf (otherAt .hdr1).visit = [.rw 0xC0D0 0x00000502] ∧ eventsOf (otherAt .hdr2).visit = [.rw 0xC0D0 0x00000500] ∧
    eventsOf (otherAt .hdr3).visit = [.rw 0xC0D0 0x00000A00] ∧
    eventsOf { otherAt .rdPop with regAnswers := [9] }.visit = [.rr 0xC0D4 9] ∧
    eventsOf (otherAt .clrWr).visit = [.rw 0xC0DC 0] ∧ eventsOf (otherAt .recCnfg).visit = [.rw 0x0010 7] ∧
    eventsOf { otherAt .recCnfg with dC := 1 }.visit = [.rw 0xD094 7] ∧
    eventsOf { otherAt .recSlWr with stage := 0x40 }.visit = [.rw 0x0018 0x50] := by decide

/-- The table has `N_CTLR` entries and no other; CMD1 and the buffer addresses have `ADDR_W` bits. -/
theorem test_other_table :
    (∃ t, { otherAt .check with dC := 2 }.visit = .next t ∧ t.errKind = .busNotReady) ∧
    (∃ t, { otherAt .check with dC := 1 }.visit = .next t ∧ t.st = .clrRd) ∧
    (∃ t, { otherAt .idle with hostIn := [.command 0x200001D0 0xFFFE] }.visit = .next t ∧ t.dBuf = 0xFFFE) ∧
    eventsOf { otherAt .rdStore with ptr := 0xFFFE, stage := 0x44332211, dRead := true }.visit =
      [.mw1 0xFFFE 0x11, .mw1 0xFFFF 0x22, .mw1 0x0000 0x33, .mw1 0x0001 0x44] :=
  ⟨⟨_, rfl, rfl⟩, ⟨_, rfl, rfl⟩, ⟨_, rfl, rfl⟩, by decide⟩

/-- The three polls test the fields the parameters give. -/
theorem test_other_polls :
    eventsOf { otherAt .wrWait with regAnswers := [0x400] }.visit = [.rr 0xC0D8 0x400] ∧
    eventsOf { otherAt .wrWait with regAnswers := [0x80] }.visit = [.rr 0xC0D8 0x80, .dly 5] ∧
    eventsOf { otherAt .rdWait with regAnswers := [0x10000] }.visit = [.rr 0xC0D8 0x10000] ∧
    (∃ t, { otherAt .doneWait with regAnswers := [2] }.visit = .next t ∧ t.st = .respond) ∧
    ∃ t, { otherAt .doneWait with regAnswers := [8] }.visit = .next t ∧ t.errKind = .arbitrationLost :=
  ⟨by decide, by decide, by decide, ⟨_, rfl, rfl⟩, ⟨_, rfl, rfl⟩⟩

/-- A poll expires at the `N_POLL` of the parameters, below and above the default's. -/
theorem test_other_budgets :
    (∃ t, { otherAt .wrWait with regAnswers := [0x80], polls := 4 }.visit = .next t ∧ t.errKind = .timeout) ∧
    (∃ t, { otherAt .wrWait with regAnswers := [0x80], polls := 3 }.visit = .next t ∧ t.st = .wrWait) ∧
    (∃ t, { State.resetOf longBudget with regAnswers := [0], polls := 2000, st := .doneWait }.visit = .next t ∧
      t.errKind = .timeout) ∧
    ∃ t, { State.resetOf longBudget with regAnswers := [0], polls := 1023, st := .doneWait }.visit = .next t ∧
      t.st = .doneWait ∧ t.polls = 1024 :=
  ⟨⟨_, rfl, rfl⟩, ⟨_, rfl, rfl⟩, ⟨_, rfl, rfl⟩, ⟨_, rfl, rfl, rfl⟩⟩

/-- `LEN_MAX` of the parameters bounds a WRITE presented in IDLE. -/
theorem test_other_len :
    { otherAt .idle with hostIn := [.command 0x200008D0 0] }.visit = .refused .lengthOutOfDomain := by rfl

/-! ## Witnesses: the hypotheses of the statements are met, clause by clause -/

theorem witness_EncodingInvertsDecoding : decode .cmd [0x3108007F, 0] = .ok (.read 1 false 4096 0x7F 0) ∧
    decode .cmd [0x400FFF50, 1] = .ok (.probe 0 false 0x50 1) := by decide

theorem witness_ReservedCommandsRefused :
    (presented (.command 0 0)).st = .idle ∧ (presented (.command 0 0)).hostIn = [.command 0 0] ∧
    (0x00000000 : Word).extractLsb' 28 4 = 0 ∧ 5 ≤ ((0x50000000 : Word).extractLsb' 28 4).toNat ∧
    5 ≤ ((0xF0000000 : Word).extractLsb' 28 4).toNat ∧ (0x201000D0 : Word).extractLsb' 20 3 ≠ 0 := by decide

theorem witness_UnusedStateCodesRejected : 19 ≤ (19 : Word).toNat ∧ ¬19 ≤ (18 : Word).toNat := by decide

theorem witness_AddressAssembly : (writing .idle).st = .idle ∧ lengthInDomain 1 = true ∧
    lengthInDomain 4096 = true := by decide

theorem witness_StepRunsTheDecodedInstruction :
    (presented (.command 0x13000000 0)).hostIn = [.command 0x13000000 0] ∧
    decode .cmd [0x13000000, 0] = .ok (.init 3 false 0 0 0) ∧
    decode .useq (encode (writing .doneWait).st.instr) = .ok .waitdoneDoneWait := by decide

theorem witness_StepRunsTheDecodedInstruction_cfgWrite (r : CfgRecord) :
    (presented (.cfgWrite 0 r)).st = .idle ∧ (presented (.cfgWrite 0 r)).hostIn = .cfgWrite 0 r :: [] := ⟨rfl, rfl⟩

theorem witness_SequencerFormsItsWords : (writing .hdr1).ct[(writing .hdr1).dC.toNat]? = some ctlr0 ∧
    (writing .hdr2).dLen ≠ 0 ∧ (writing .hdr3).dAddr8 = addr8Of 0x50 (writing .hdr3).dRead ∧
    (reading .hdr3).dAddr8 = addr8Of 0x50 (reading .hdr3).dRead ∧ (recovering .respond).st = .respond := by decide

theorem witness_IdleWaitsOrAccepts : (writing .idle).hostIn = [] ∧ lengthInDomain 3 = true ∧
    (presented (.command (cmdWord0 2 0 false 3 0x50) 0)).hostIn = [.command (cmdWord0 2 0 false 3 0x50) 0] := by decide

theorem witness_AcceptanceLatchesTheDescriptor : (writing .idle).st = .idle ∧ 1 ≤ (1 : BitVec 13).toNat ∧
    (1 : BitVec 13).toNat ≤ Config.params.lenMax ∧ (4096 : BitVec 13).toNat ≤ Config.params.lenMax := by decide

theorem witness_BusyCoreRefusesTheHost : (writing .check).st ≠ .idle ∧ (writing .respond).st ≠ .idle := by decide

theorem witness_LengthsOutsideTheDomainRefused : (writing .idle).st = .idle ∧
    Config.params.lenMax < (4097 : BitVec 13).toNat ∧ Config.params.lenMax < (8191 : BitVec 13).toNat := by decide

/-- A record for entry `i` of the table. -/
def recordFor (i : BitVec 4) : CfgRecord :=
  { id := i, periphId := 12, speedHz := 0, pinmux := 0, regsBase := 0, ctrlBase := 0, singleClk := false, isDvc := false }

theorem witness_CfgWriteWritesItsEntry : (writing .idle).ct[0]? = some ctlr0 ∧ (recordFor 0).id.toNat = 0 ∧
    (writing .idle).ct[3]? = some ctlr3 ∧ (recordFor 3).id.toNat = 3 := by decide

theorem witness_BadCfgWritesRefused : (writing .idle).st = .idle ∧ Config.params.nCtlr ≤ 4 ∧ 3 < Config.params.nCtlr ∧
    (recordFor 1).id.toNat ≠ 3 := by decide

theorem witness_CheckTestsInOrder : Config.params.nCtlr ≤ (4 : BitVec 4).toNat ∧
    (initialising .check).ct[(initialising .check).dC.toNat]? = some { ctlr3 with inited := false } ∧
    (initialising .check).dInit = true ∧ table[(1 : BitVec 4).toNat]? = some { ctlr0 with id := 1, inited := false } ∧
    (writing .check).dInit = false ∧ table[(0 : BitVec 4).toNat]? = some ctlr0 ∧ ctlr0.inited = true ∧
    { writing .check with dTen := true }.dTen = true ∧ (writing .check).dTen = false := by decide

/-- An entry, aligned bases and an admitting environment: what the register visits need, standard and DVC. -/
theorem witness_register_visits : (writing .clrRd).ct[(writing .clrRd).dC.toNat]? = some ctlr0 ∧
    ctlr0.ctrlBase.toNat % 4 = 0 ∧ ctlr0.regsBase.toNat % 4 = 0 ∧ (writing .clrRd).admits 1 = true ∧
    { writing .clrRd with portLimit := some 1 }.admits 1 = true ∧
    { writing .clrRd with portLimit := some 0 }.admits 1 = false ∧
    (initialising .recCnfg).ct[(initialising .recCnfg).dC.toNat]? = some { ctlr3 with inited := false } ∧
    ctlr3.regsBase.toNat % 4 = 0 ∧ ctlr0.isDvc = false ∧ ctlr3.isDvc = true := by decide

theorem witness_ClrstReadsAndWritesBack : (writing .clrWr).ct[(writing .clrWr).dC.toNat]? = some ctlr0 ∧
    ctlr0.ctrlBase.toNat % 4 = 0 ∧ (writing .clrWr).admits 1 = true := by decide

theorem witness_HeaderStatesEmitTheirWords : (writing .hdr2).ct[(writing .hdr2).dC.toNat]? = some ctlr0 ∧
    ctlr0.ctrlBase.toNat % 4 = 0 ∧ (writing .hdr2).admits 1 = true ∧ (writing .hdr2).dLen ≠ 0 ∧
    { writing .hdr2 with dLen := 0 }.dLen = 0 := by decide

theorem witness_HeaderWordsAreEmitted : (writing .hdr1).ct[(writing .hdr1).dC.toNat]? = some ctlr0 ∧
    ctlr0.ctrlBase.toNat % 4 = 0 ∧ (writing .hdr1).admits 1 = true := by decide

theorem witness_HeaderIsThreeWritesThenTheLoop : (writing .hdr1).st = .hdr1 ∧
    (writing .hdr1).ct[(writing .hdr1).dC.toNat]? = some ctlr0 ∧ ctlr0.ctrlBase.toNat % 4 = 0 ∧
    { writing .hdr1 with portLimit := some 3 }.admits 3 = true ∧ lengthInDomain (writing .hdr1).dLen = true ∧
    lengthInDomain { writing .hdr1 with dLen := 4096 }.dLen = true := by decide

theorem witness_AlignedFetch : (writing .wrFetch).dProbe = false ∧ (writing .wrFetch).ptr.toNat % 4 = 0 ∧
    (writing .wrFetch).admits 1 = true ∧ memGet (writing .wrFetch).mem (writing .wrFetch).ptr.toNat = some 0x11 ∧
    memGet (writing .wrFetch).mem ((writing .wrFetch).ptr + 1).toNat = some 0x22 ∧
    memGet (writing .wrFetch).mem ((writing .wrFetch).ptr + 2).toNat = some 0x33 ∧
    memGet (writing .wrFetch).mem ((writing .wrFetch).ptr + 3).toNat = some 0x44 ∧
    ¬((writing .wrFetch).words = 1 ∧ (writing .wrFetch).rem ≠ 0) := by decide

/-- The same with the partial final word at 0x1004. -/
theorem witness_AlignedFetch_partial : let s := { writing .wrFetch with words := 1, ptr := 0x1004 }
    s.dProbe = false ∧ s.ptr.toNat % 4 = 0 ∧ s.admits 1 = true ∧ memGet s.mem s.ptr.toNat = some 0x55 ∧
    memGet s.mem (s.ptr + 1).toNat = some 0x66 ∧ memGet s.mem (s.ptr + 2).toNat = some 0x77 ∧
    memGet s.mem (s.ptr + 3).toNat = some 0x88 ∧ s.words = 1 ∧ s.rem ≠ 0 ∧ 1 < s.rem.toNat := by decide

theorem witness_ByteWiseFetch : let s := { writing .wrFetch with ptr := 0x1001, portLimit := some 4 }
    s.dProbe = false ∧ s.ptr.toNat % 4 ≠ 0 ∧ s.admits 4 = true ∧ memGet s.mem s.ptr.toNat = some 0x22 ∧
    memGet s.mem (s.ptr + 1).toNat = some 0x33 ∧ memGet s.mem (s.ptr + 2).toNat = some 0x44 ∧
    memGet s.mem (s.ptr + 3).toNat = some 0x55 ∧ ¬(s.words = 1 ∧ s.rem ≠ 0) := by decide

theorem witness_ByteWiseFetch_partial : let s := { writing .wrFetch with ptr := 0x1003, words := 1, rem := 3 }
    s.dProbe = false ∧ s.ptr.toNat % 4 ≠ 0 ∧ s.admits 4 = true ∧ memGet s.mem s.ptr.toNat = some 0x44 ∧
    memGet s.mem (s.ptr + 1).toNat = some 0x55 ∧ memGet s.mem (s.ptr + 2).toNat = some 0x66 ∧
    memGet s.mem (s.ptr + 3).toNat = some 0x77 ∧ s.words = 1 ∧ s.rem ≠ 0 ∧ 2 < s.rem.toNat := by decide

/-- The bytes of 0x1000 to 0x1003, one address higher. -/
def shifted : State :=
  { writing .wrFetch with
    rem := 0, ptr := 0x1001, mem := [(0x1001, 0x11), (0x1002, 0x22), (0x1003, 0x33), (0x1004, 0x44)] }

/-- A full word of a payload with a partial tail (`words = 2`, `rem = 2`), and the last word of one without. -/
theorem witness_BothFetchPathsGiveTheSameWord : let s := writing .wrFetch
    s.dProbe = false ∧ shifted.dProbe = false ∧ s.ptr.toNat % 4 = 0 ∧ shifted.ptr.toNat % 4 ≠ 0 ∧
    (∀ j < 4, memGet s.mem (s.ptr + BitVec.ofNat Config.params.addrW j).toNat =
      memGet shifted.mem (shifted.ptr + BitVec.ofNat Config.params.addrW j).toNat) ∧
    exec .pushwWrFetch s = .next (after s) ∧ exec .pushwWrFetch shifted = .next (after shifted) ∧
    s.rem ≠ 0 ∧ ¬(s.words = 1 ∧ s.rem ≠ 0) ∧ ¬(shifted.words = 1 ∧ shifted.rem ≠ 0) :=
  ⟨rfl, rfl, rfl, by decide, by decide, rfl, rfl, by decide, by decide, by decide⟩

/-- The partial final words of two payloads, `words = 1` and `rem = 2`. -/
theorem witness_BothFetchPathsGiveTheSameWord_partial :
    let s := { writing .wrFetch with words := 1 }
    let s' := { shifted with words := 1, rem := 2 }
    s.dProbe = false ∧ s'.dProbe = false ∧ s.ptr.toNat % 4 = 0 ∧ s'.ptr.toNat % 4 ≠ 0 ∧
    (∀ j < 4, memGet s.mem (s.ptr + BitVec.ofNat Config.params.addrW j).toNat =
      memGet s'.mem (s'.ptr + BitVec.ofNat Config.params.addrW j).toNat) ∧
    exec .pushwWrFetch s = .next (after s) ∧ exec .pushwWrFetch s' = .next (after s') ∧
    s.words = 1 ∧ s'.words = 1 ∧ s.rem ≠ 0 ∧ s'.rem = s.rem :=
  ⟨rfl, rfl, rfl, by decide, by decide, rfl, rfl, rfl, rfl, by decide, rfl⟩

theorem witness_ProbeFetchIsAnInternalZero : { writing .wrFetch with dProbe := true }.dProbe = true := by decide

theorem witness_PushWritesTheStagingWord : (writing .wrPush).ct[(writing .wrPush).dC.toNat]? = some ctlr0 ∧
    ctlr0.ctrlBase.toNat % 4 = 0 ∧ (writing .wrPush).admits 1 = true := by decide

theorem witness_PopReadsOneWord : (reading .rdPop).ct[(reading .rdPop).dC.toNat]? = some ctlr0 ∧
    ctlr0.ctrlBase.toNat % 4 = 0 ∧ (reading .rdPop).admits 1 = true := by decide

/-- The three cases of the store; the partial one at 1 and at 3 bytes, on an aligned and an unaligned buffer. -/
theorem witness_StoreThenAdvance_partial :
    let s := { reading .rdStore with dLen := 3, rem := 3, portLimit := some 3 }
    let u := { reading .rdStore with dBuf := 0x2001, ptr := 0x2001, dLen := 1, rem := 1 }
    (s.words ≠ 0 ∧ s.admits (byteWrites s.ptr s.stage 3).length = true ∧ s.words = 1 ∧ s.rem ≠ 0 ∧ 3 = s.rem.toNat) ∧
    u.words ≠ 0 ∧ u.admits (byteWrites u.ptr u.stage 1).length = true ∧ u.words = 1 ∧ u.rem ≠ 0 ∧
      1 = u.rem.toNat := by decide

theorem witness_StoreThenAdvance_full :
    let s := { reading .rdStore with ptr := 0x2002 }
    (s.words ≠ 0 ∧ s.admits (byteWrites s.ptr s.stage 4).length = true ∧ ¬(s.words = 1 ∧ s.rem ≠ 0) ∧
      s.ptr.toNat % 4 ≠ 0) ∧
    ((reading .rdStore).words ≠ 0 ∧ (reading .rdStore).admits 1 = true ∧
      ¬((reading .rdStore).words = 1 ∧ (reading .rdStore).rem ≠ 0) ∧ (reading .rdStore).ptr.toNat % 4 = 0) ∧
    { reading .rdStore with words := 2, rem := 1 }.words ≠ 1 := by decide

/-- Vector M1 read back into 0x2002 (M13). -/
theorem witness_RoundTripOfAWord : let s := { writing .wrFetch with words := 1, rem := 0 }
    let u := { reading .rdStore with ptr := 0x2002 }
    s.dProbe = false ∧ 4 = (if s.words = 1 ∧ s.rem ≠ 0 then s.rem.toNat else 4) ∧
    exec .pushwWrFetch s = .next (after s) ∧ exec .popwRdStore u = .next (after u) ∧
    u.words = s.words ∧ u.rem = s.rem ∧
    ∀ j < 4, u.stage.extractLsb' (8 * j) 8 = (after s).stage.extractLsb' (8 * j) 8 :=
  ⟨rfl, rfl, rfl, rfl, rfl, rfl, by decide⟩

theorem witness_WaitTxSample : (writing .wrWait).ct[(writing .wrWait).dC.toNat]? = some ctlr0 ∧
    ctlr0.ctrlBase.toNat % 4 = 0 ∧
    ((0x80 : Word).extractLsb' Config.params.fsTxEmptyLsb Config.params.fsTxEmptyW).toNat = Config.params.fifoDepth ∧
    ((0x90 : Word).extractLsb' Config.params.fsTxEmptyLsb Config.params.fsTxEmptyW).toNat ≠ Config.params.fifoDepth ∧
    { writing .wrWait with regAnswers := [0x80] }.answer = 0x80 ∧ (writing .wrWait).admits 2 = true ∧
    1 < (writing .wrWait).words.toNat ∧ { writing .wrWait with words := 1 }.words = 1 ∧
    (999 : BitVec 10).toNat + 1 < Config.params.nPoll ∧ (1000 : BitVec 10).toNat + 1 = Config.params.nPoll := by decide

theorem witness_WaitRxSample : (reading .rdWait).ct[(reading .rdWait).dC.toNat]? = some ctlr0 ∧
    ctlr0.ctrlBase.toNat % 4 = 0 ∧ (0x81 : Word).extractLsb' Config.params.fsRxFullLsb Config.params.fsRxFullW ≠ 0 ∧
    (0xFFFFFFF0 : Word).extractLsb' Config.params.fsRxFullLsb Config.params.fsRxFullW = 0 ∧
    { reading .rdWait with regAnswers := [0xFFFFFFF0] }.answer = 0xFFFFFFF0 ∧ (reading .rdWait).admits 2 = true ∧
    (0 : BitVec 10).toNat + 1 < Config.params.nPoll ∧ (1000 : BitVec 10).toNat + 1 = Config.params.nPoll := by decide

theorem witness_WaitDoneSample : (writing .doneWait).ct[(writing .doneWait).dC.toNat]? = some ctlr0 ∧
    ctlr0.ctrlBase.toNat % 4 = 0 ∧ { writing .doneWait with regAnswers := [0x8C] }.answer = 0x8C ∧
    (writing .doneWait).admits 2 = true ∧ (0x8C : Word).getLsbD Config.params.isNoackBit = true ∧
    (0x84 : Word).getLsbD Config.params.isNoackBit = false ∧ (0x84 : Word).getLsbD Config.params.isArbLostBit = true ∧
    (0x80 : Word).getLsbD Config.params.isArbLostBit = false ∧ (0x80 : Word).getLsbD Config.params.isXferDoneBit = true ∧
    (0x03 : Word).getLsbD Config.params.isNoackBit = false ∧ (0x03 : Word).getLsbD Config.params.isArbLostBit = false ∧
    (0x03 : Word).getLsbD Config.params.isXferDoneBit = false ∧ (1000 : BitVec 10).toNat + 1 = Config.params.nPoll := by
  decide

/-- W3, W10, W21: 1001 samples none of which ends the poll. -/
def expiring (t : SeqState) (v : Word) : State := { writing t with regAnswers := List.replicate 1001 v }

theorem witness_PollExpiresAfterItsBudget (t : SeqState) (v : Word) (h : t.sampleFails v = true) :
    (expiring t v).polls = 0 ∧ (expiring t v).portLimit = none ∧
    (expiring t v).ct[(expiring t v).dC.toNat]? = some ctlr0 ∧
    (∀ w ∈ (expiring t v).regAnswers, (expiring t v).st.sampleFails w = true) ∧
    Config.params.nPoll ≤ (expiring t v).regAnswers.length := by
  refine ⟨rfl, rfl, rfl, ?_, ?_⟩
  · intro w hw
    rw [(List.mem_replicate.mp hw).2]
    exact h
  · simp only [expiring, List.length_replicate, test_n_poll, le_refl]

theorem witness_PollExpiresAfterItsBudget_polls : ctlr0.ctrlBase.toNat % 4 = 0 ∧
    (SeqState.wrWait.isPoll = true ∧ SeqState.wrWait.sampleFails 0x70 = true) ∧
    (SeqState.rdWait.isPoll = true ∧ SeqState.rdWait.sampleFails 0x80 = true) ∧
    (SeqState.doneWait.isPoll = true ∧ SeqState.doneWait.sampleFails 0 = true) := by decide

/-- M14: a READ of 7 bytes to 0x2002, both polls ready at once. -/
def readingTwo : State :=
  { reading .rdWait with
    dBuf := 0x2002, ptr := 0x2002, dLen := 7, words := 2, rem := 3, regAnswers := [0x81, 0x44332211, 1, 0x88776655] }

theorem witness_ReadLoopStoresThePayload : let ps : List (Word × Word) := [(0x81, 0x44332211), (1, 0x88776655)]
    readingTwo.st = .rdWait ∧ readingTwo.ct[readingTwo.dC.toNat]? = some ctlr0 ∧ ctlr0.ctrlBase.toNat % 4 = 0 ∧
    readingTwo.portLimit = none ∧ readingTwo.words ≠ 0 ∧ ps.length = readingTwo.words.toNat ∧
    (∀ p ∈ ps, rxReady p.1 = true) ∧ readingTwo.regAnswers = ps.flatMap (fun p => [p.1, p.2]) ++ [] :=
  ⟨rfl, rfl, by decide, rfl, by decide, rfl, by simp [rxReady, fsRxFull, getField, Config.params], rfl⟩

/-- M5. -/
theorem witness_WriteLoopPushesThePayload : let s := { writing .wrFetch with regAnswers := [0x80, 0x8F] }
    s.st = .wrFetch ∧ s.ct[s.dC.toNat]? = some ctlr0 ∧ ctlr0.ctrlBase.toNat % 4 = 0 ∧ s.portLimit = none ∧
    s.dProbe = false ∧ s.words ≠ 0 ∧ [0x80, 0x8F].length = s.words.toNat ∧
    (∀ v ∈ [(0x80 : Word), 0x8F], txReady v = true) ∧
    (∀ k < 4 * s.words.toNat, (memGet s.mem (s.ptr + BitVec.ofNat Config.params.addrW k).toNat).isSome = true) ∧
    s.regAnswers = [0x80, 0x8F] ++ [] :=
  ⟨rfl, rfl, by decide, rfl, rfl, by decide, rfl, by simp [txReady, fsTxEmpty, getField, Config.params], by decide, rfl⟩

theorem witness_RecoveryVisits : (recovering .recCnfg).ct[(recovering .recCnfg).dC.toNat]? = some ctlr0 ∧
    ctlr0.regsBase.toNat % 4 = 0 ∧ (recovering .recCnfg).admits 1 = true ∧ ctlr0.isDvc = false ∧
    (initialising .recCnfg).ct[(initialising .recCnfg).dC.toNat]? = some { ctlr3 with inited := false } ∧
    { ctlr3 with inited := false }.isDvc = true := by decide

theorem witness_RecoveryThenTheOriginalError : (recovering .recReset).st = .recReset ∧
    (recovering .recReset).ct[(recovering .recReset).dC.toNat]? = some ctlr0 ∧ ctlr0.regsBase.toNat % 4 = 0 ∧
    ctlr0.isDvc = false ∧ { recovering .recReset with portLimit := some 5 }.admits 5 = true ∧
    (recovering .recReset).dInit = false ∧ (initialising .recReset).dInit = true ∧
    (initialising .recReset).ct[(initialising .recReset).dC.toNat]? = some { ctlr3 with inited := false } ∧
    { ctlr3 with inited := false }.isDvc = true ∧
    { initialising .recReset with portLimit := some 3 }.admits 3 = true := by decide

theorem witness_RespondDeliversTheLatch : (recovering .respond).admits 1 = true := by decide
theorem witness_ResponsesAreDelivered : { recovering .respond with portLimit := some 1 }.admits 1 = true := by decide

theorem witness_SuccessIsDelivered : let s := { writing .doneWait with words := 0, regAnswers := [0x80] }
    s.st = .doneWait ∧ s.ct[s.dC.toNat]? = some ctlr0 ∧ ctlr0.ctrlBase.toNat % 4 = 0 ∧ s.admits 2 = true ∧
    noAck s.answer = false ∧ arbLost s.answer = false ∧ xferDone s.answer = true := by decide

/-- A1, A4: an entry not initialised, and an index outside the table. -/
theorem witness_UninitialisedControllersAnswerBusNotReady : (writing .idle).st = .idle ∧
    (writing .idle).admits 1 = true ∧ lengthInDomain 3 = true ∧
    ((writing .idle).ct[(1 : BitVec 4).toNat]?.map (·.inited)) = some false ∧
    (writing .idle).ct[(5 : BitVec 4).toNat]? = none ∧
    Instr.probe 1 false 0x50 0 ∈
      [Instr.write 1 false 3 0x50 0, .read 1 false 3 0x50 0, .probe 1 false 0x50 0] := by decide

theorem witness_NegatedSnapshotsAreDistinguishable : (8 : Word).getLsbD Config.params.isNoackBit = true ∧
    (4 : Word).getLsbD Config.params.isArbLostBit = true := by decide

/-! ### Witnesses of the statements about every step -/

theorem witness_TransitionsFollowTheTable : step (writing .idle) = .next (writing .idle) ∧
    step (writing .wrFetch) = .next (after (writing .wrFetch)) ∧
    step (recovering .recReset) = .next (after (recovering .recReset)) := ⟨rfl, rfl, rfl⟩

/-- DONE_WAIT with no word left and one answer of INT_STATUS. -/
def finishing (v : Word) : State := { writing .doneWait with words := 0, ptr := 0x1008, regAnswers := [v] }

/-- Both ends of the body (success, protocol error), a step inside it, a step of recovery. -/
theorem witness_HardwareErrorsGoThroughRecovery :
    (step (finishing 0x80) = .next (after (finishing 0x80)) ∧ (finishing 0x80).st.inBody = true ∧
      (after (finishing 0x80)).st.inBody = false) ∧
    (step (finishing 8) = .next (after (finishing 8)) ∧ (after (finishing 8)).st.inBody = false) ∧
    (step (writing .wrFetch) = .next (after (writing .wrFetch)) ∧ (after (writing .wrFetch)).st.inBody = true) ∧
    step (recovering .recReset) = .next (after (recovering .recReset)) ∧
      (recovering .recReset).st.inRecovery = true := ⟨⟨rfl, rfl, rfl⟩, ⟨rfl, rfl⟩, ⟨rfl, rfl⟩, rfl, rfl⟩

/-- The invariant holds of states in the middle of commands, not only after reset. -/
theorem witness_Inv_writing : (writing .wrFetch).Inv := by
  constructor <;> decide
theorem witness_Inv_reading : (reading .rdStore).Inv := by
  constructor <;> decide
theorem witness_Inv_reading_partial : { reading .rdStore with dLen := 3, rem := 3 }.Inv := by
  constructor <;> decide
theorem witness_Inv_recovering : (recovering .recSlRd).Inv := by
  constructor <;> decide
theorem witness_Inv_initialising : (initialising .recCnfg).Inv := by
  constructor <;> decide

theorem witness_InvariantKeptByEveryStep :
    (writing .wrFetch).Inv ∧ step (writing .wrFetch) = .next (after (writing .wrFetch)) := ⟨witness_Inv_writing, rfl⟩

theorem witness_BufferSpaceStaysCanonical : memWf sourceBytes = true ∧ memWf (reading .rdStore).mem = true ∧
    step (reading .rdStore) = .next (after (reading .rdStore)) := ⟨by decide, rfl, rfl⟩

theorem witness_OnlyTheSixRegistersAreAccessed : (initialising .recCnfg).Inv ∧
    step (initialising .recCnfg) = .next (after (initialising .recCnfg)) := ⟨witness_Inv_initialising, rfl⟩

/-- A step that reads the buffer and one that writes it. -/
theorem witness_BufferEventsByDirection :
    (step (writing .wrFetch) = .next (after (writing .wrFetch)) ∧ (writing .wrFetch).Inv ∧
      (∃ e ∈ events (writing .wrFetch), e.isBufferRead = true) ∧ (writing .wrFetch).st ≠ .rdStore) ∧
    step (reading .rdStore) = .next (after (reading .rdStore)) ∧ (reading .rdStore).Inv ∧
      ∃ e ∈ events (reading .rdStore), e.isBufferWrite = true :=
  ⟨⟨rfl, witness_Inv_writing, by decide, by decide⟩, rfl, witness_Inv_reading, by decide⟩

theorem witness_PollsOnlyRead : (writing .wrWait).st.isPoll = true ∧ (reading .rdWait).st.isPoll = true ∧
    (finishing 3).st.isPoll = true ∧ step (finishing 3) = .next (after (finishing 3)) := ⟨rfl, rfl, rfl, rfl⟩

/-- An entry already set, and one that this step sets. -/
theorem witness_InitedIsSetByInitAndNeverCleared :
    step (initialising .recCnfg) = .next (after (initialising .recCnfg)) ∧
    (initialising .recCnfg).ct[0]? = some ctlr0 ∧ ctlr0.inited = true ∧
    (initialising .recCnfg).ct[3]? = some { ctlr3 with inited := false } ∧
    (after (initialising .recCnfg)).ct[3]? = some ctlr3 := ⟨rfl, by decide, by decide, by decide, by decide⟩

/-- Not idle, and idle with a command presented. -/
theorem witness_TableFieldsReadAndWritten :
    (step (initialising .recCnfg) = .next (after (initialising .recCnfg)) ∧ (initialising .recCnfg).st ≠ .idle) ∧
    step (presented (.command 0x13000000 0)) = .next (after (presented (.command 0x13000000 0))) ∧
    (presented (.command 0x13000000 0)).hostIn = [.command 0x13000000 0] := ⟨⟨rfl, by decide⟩, rfl, rfl⟩

theorem witness_DescriptorHeldDuringACommand : (writing .wrFetch).st ≠ .idle ∧
    step (writing .wrFetch) = .next (after (writing .wrFetch)) := ⟨by decide, rfl⟩

theorem witness_EveryVisitBringsTheResponseNearer : (finishing 3).Inv ∧ (finishing 3).st ≠ .idle ∧
    step (finishing 3) = .next (after (finishing 3)) := ⟨by constructor <;> decide, by decide, rfl⟩

/-- A WRITE whose source bytes are readable, on an entry with aligned bases. -/
theorem witness_CommandEndsWithItsResponse : (writing .wrFetch).Inv ∧ (writing .wrFetch).st ≠ .idle ∧
    (writing .wrFetch).portLimit = none ∧ (writing .wrFetch).BasesAligned ∧ (writing .wrFetch).SourceReadable := by
  refine ⟨witness_Inv_writing, by decide, rfl, ?_, ?_⟩
  · intro c hc
    rw [show (writing .wrFetch).ct[(writing .wrFetch).dC.toNat]? = some ctlr0 from rfl] at hc
    cases hc
    decide
  · intro _ _ _
    rw [show 4 * payloadWords (writing .wrFetch).dLen = 8 by decide]
    decide

theorem witness_MisalignedBasesRefused :
    { writing .clrRd with ct := #v[{ ctlr0 with ctrlBase := 0x7000C051, regsBase := 0x7000C003 }, Ctlr.zero, Ctlr.zero,
      Ctlr.zero] }.ct[(0 : BitVec 4).toNat]? = some { ctlr0 with ctrlBase := 0x7000C051, regsBase := 0x7000C003 } ∧
    (0x7000C051 : Addr).toNat % 4 ≠ 0 ∧ (0x7000C003 : Addr).toNat % 4 ≠ 0 := by decide

theorem witness_UncompletedPortEventsAreStuck : let s := { writing .clrRd with portLimit := some 0 }
    s.ct[s.dC.toNat]? = some ctlr0 ∧ ctlr0.ctrlBase.toNat % 4 = 0 ∧ ctlr0.regsBase.toNat % 4 = 0 ∧
    s.portLimit = some 0 ∧ (Instr.hdr1 1 0).format ∈ [.hdr1, .hdr2, .hdr3] ∧ (Instr.rspOk true 0).format = .rsp := by
  decide

/-- The aligned fetch with no event completed, the byte-wise one with three. -/
theorem witness_UncompletedPortEventsAreStuck_fetch :
    let s := { writing .wrFetch with portLimit := some 0 }
    let u := { writing .wrFetch with ptr := 0x1003, portLimit := some 3 }
    (s.ct[s.dC.toNat]? = some ctlr0 ∧ s.dProbe = false ∧ (memWord s.mem s.ptr).isSome = true ∧ s.ptr.toNat % 4 = 0) ∧
    u.ct[u.dC.toNat]? = some ctlr0 ∧ u.dProbe = false ∧ (memWord u.mem u.ptr).isSome = true ∧
      u.ptr.toNat % 4 ≠ 0 ∧ u.portLimit = some 3 := by decide

/-- A partial, an aligned and an unaligned store that lack their last event. -/
theorem witness_UncompletedPortEventsAreStuck_store :
    let lacks := fun (s : State) (n : Nat) => s.ct[s.dC.toNat]? = some ctlr0 ∧ s.portLimit = some n ∧
      n < (if s.words = 1 ∧ s.rem ≠ 0 then s.rem.toNat else if s.ptr.toNat % 4 = 0 then 1 else 4)
    lacks { reading .rdStore with dLen := 3, rem := 3, portLimit := some 2 } 2 ∧
    lacks { reading .rdStore with portLimit := some 0 } 0 ∧
    lacks { reading .rdStore with ptr := 0x2001, portLimit := some 3 } 3 := by decide

/-- A failing sample of each poll, its read completed and its delay not. -/
theorem witness_UncompletedPortEventsAreStuck_delay :
    let once := fun (s : State) => { s with regAnswers := [0], portLimit := some 1 }
    (once (writing .wrWait)).ct[(writing .wrWait).dC.toNat]? = some ctlr0 ∧
    (once (writing .wrWait)).portLimit = some 1 ∧ txReady (once (writing .wrWait)).answer = false ∧
    rxReady (once (reading .rdWait)).answer = false ∧ noAck (once (writing .doneWait)).answer = false ∧
    arbLost (once (writing .doneWait)).answer = false ∧ xferDone (once (writing .doneWait)).answer = false := by decide

/-- UnreadableSourceIsStuck: the last byte of the word, and all of it, not listed. -/
theorem witness_UnreadableSourceIsStuck : let s := { writing .wrFetch with ptr := 0x1006 }
    s.dProbe = false ∧ s.portLimit = none ∧ memGet s.mem (s.ptr + BitVec.ofNat Config.params.addrW 3).toNat = none ∧
    memGet (reading .idle).mem ((reading .idle).ptr + BitVec.ofNat Config.params.addrW 0).toNat = none := by decide

theorem witness_StopsWhereTheSpecHasNoRun : Config.params.nCtlr ≤ { writing .clrRd with dC := 4 }.dC.toNat ∧
    { reading .rdStore with words := 0 }.words = 0 ∧ (reading .rdStore).portLimit = none ∧
    (writing .wrWait).ct[(writing .wrWait).dC.toNat]? = some ctlr0 ∧ ctlr0.ctrlBase.toNat % 4 = 0 ∧
    txReady { writing .wrWait with words := 0, regAnswers := [0x80] }.answer = true := by decide

end Sys2Proof.Tests
end

/-! ## Noninterference of `speed_hz`, `pinmux` and `single_clk` (10_state.md R24)

Every visit but IDLE's commutes with blanking the three fields: run from the blanked state it stops alike or reaches the
blanked successor (`SeenThrough`), which is shown operation by operation. IDLE's does so for commands; a configuration
write stores the record's own three fields, so there the two successors agree only after blanking. -/

namespace Sys2Proof.Machine

section Noninterference

variable {α β : Type}

/-- `o'` is `o` with what it carries seen through `v`: both stop alike, or `o'` carries `v a` where `o` carries `a`. -/
def SeenThrough (v : α → α) (o o' : Result α) : Prop := o' = andThen o fun a => .next (v a)

theorem viewed_eq_andThen (f : State → State) (o : Result State) : viewed f o = andThen o fun s => .next (f s) := by
  cases o <;> rfl

theorem SeenThrough.andThen {v : α → α} {w : β → β} {o o' : Result α} {f g : α → Result β}
    (ho : SeenThrough v o o') (h : ∀ a, SeenThrough w (f a) (g (v a))) :
    SeenThrough w (andThen o f) (andThen o' g) := by
  subst ho
  cases o with
  | next a => exact h a
  | fault r => rfl
  | refused r => rfl

theorem SeenThrough.ite {v : α → α} {p : Prop} [Decidable p] {o₁ o₁' o₂ o₂' : Result α}
    (h₁ : SeenThrough v o₁ o₁') (h₂ : SeenThrough v o₂ o₂') :
    SeenThrough v (if p then o₁ else o₂) (if p then o₁' else o₂') := by
  split
  · exact h₁
  · exact h₂

/-- A value read together with the state after the read: only the state is blanked. -/
def blankAfterRead (r : α × State) : α × State := (r.1, r.2.blankUnread)

/-! ### Blanking and the state -/

theorem blankUnread_ct_getElem? (s : State) (i : Nat) :
    s.blankUnread.ct[i]? = s.ct[i]?.map Ctlr.Of.blankUnread := Vector.getElem?_map

theorem blankUnread_blankUnread (s : State) : s.blankUnread.blankUnread = s.blankUnread := by
  have h : Ctlr.Of.blankUnread ∘ Ctlr.Of.blankUnread = Ctlr.Of.blankUnread := rfl
  simp only [State.Of.blankUnread, Vector.map_map, h]

theorem blankUnread_setTable_setIfInBounds (s : State) (i : Nat) (c : Ctlr) :
    (s.setTable (s.ct.setIfInBounds i c)).blankUnread =
      s.blankUnread.setTable (s.blankUnread.ct.setIfInBounds i c.blankUnread) := by
  simp only [State.Of.blankUnread, State.Of.setTable, Vector.map_setIfInBounds]

theorem stageWord_blankUnread (w : Word) (s : State) : stageWord w s.blankUnread = (stageWord w s).blankUnread := by
  unfold stageWord
  rw [apply_ite State.Of.blankUnread]
  rfl

theorem enterLoop_blankUnread (s : State) : enterLoop s.blankUnread = (enterLoop s).blankUnread := by
  unfold enterLoop
  rw [apply_ite State.Of.blankUnread]
  rfl

theorem countSample_blankUnread (again : SeqState) (s : State) :
    countSample again s.blankUnread = (countSample again s).blankUnread := by
  unfold countSample
  rw [apply_ite State.Of.blankUnread]
  rfl

theorem finishRecovery_blankUnread (c : Ctlr) (s : State) :
    finishRecovery c.blankUnread s.blankUnread = (finishRecovery c s).blankUnread := by
  cases h : s.dInit with
  | false => simp [finishRecovery, State.Of.blankUnread, h, State.Of.goto]
  | true => simp [finishRecovery, State.Of.blankUnread, h, State.Of.goto, State.Of.setTable, Ctlr.Of.blankUnread]

/-! ### Blanking and the shared operations -/

theorem portEvent_seen (p : Port) (e : Event) (s : State) :
    SeenThrough State.Of.blankUnread (portEvent p e s) (portEvent p e s.blankUnread) :=
  .ite rfl rfl

theorem regRead_seen (a : Addr) (s : State) :
    SeenThrough blankAfterRead (regRead a s) (regRead a s.blankUnread) :=
  .ite ((portEvent_seen _ _ s).andThen fun _ => rfl) rfl

theorem regWrite_seen (a : Addr) (v : Word) (s : State) :
    SeenThrough State.Of.blankUnread (regWrite a v s) (regWrite a v s.blankUnread) :=
  .ite (portEvent_seen _ _ s) rfl

theorem memRead1_seen (a : Addr) (s : State) :
    SeenThrough blankAfterRead (memRead1 a s) (memRead1 a s.blankUnread) := by
  have hmem : s.blankUnread.mem = s.mem := rfl
  unfold memRead1
  rw [hmem]
  split
  · exact (portEvent_seen _ _ s).andThen fun _ => rfl
  · rfl

theorem memRead4_seen (a : Addr) (s : State) :
    SeenThrough blankAfterRead (memRead4 a s) (memRead4 a s.blankUnread) := by
  have hmem : s.blankUnread.mem = s.mem := rfl
  unfold memRead4
  rw [hmem]
  split
  · exact (portEvent_seen _ _ s).andThen fun _ => rfl
  · rfl

theorem memReadBytes_seen (a : Addr) (s : State) :
    SeenThrough blankAfterRead (memReadBytes a s) (memReadBytes a s.blankUnread) :=
  (memRead1_seen a s).andThen fun (_, s0) =>
  (memRead1_seen (a + 1) s0).andThen fun (_, s1) =>
  (memRead1_seen (a + 2) s1).andThen fun (_, s2) =>
  (memRead1_seen (a + 3) s2).andThen fun _ => rfl

theorem memWrite1_seen (a : Addr) (b : Byte) (s : State) :
    SeenThrough State.Of.blankUnread (memWrite1 a b s) (memWrite1 a b s.blankUnread) :=
  (portEvent_seen _ _ s).andThen fun _ => rfl

theorem memWrite4_seen (a : Addr) (w : Word) (s : State) :
    SeenThrough State.Of.blankUnread (memWrite4 a w s) (memWrite4 a w s.blankUnread) :=
  (portEvent_seen _ _ s).andThen fun _ => rfl

theorem memWriteBytes_seen (a : Addr) (w : Word) (s : State) (n : Nat) :
    SeenThrough State.Of.blankUnread (memWriteBytes a w s n) (memWriteBytes a w s.blankUnread n) := by
  induction n with
  | zero => rfl
  | succ n ih => exact ih.andThen fun t => memWrite1_seen _ _ t

theorem withCtlr_seen {v : α → α} {s : State} {f g : Ctlr → Result α}
    (h : ∀ c, SeenThrough v (f c) (g c.blankUnread)) :
    SeenThrough v (withCtlr s f) (withCtlr s.blankUnread g) := by
  have hdC : s.blankUnread.dC = s.dC := rfl
  unfold withCtlr
  rw [hdC, blankUnread_ct_getElem?]
  cases s.ct[s.dC.toNat]? with
  | none => rfl
  | some c => exact h c

theorem pushTx_seen (w : Word) (s : State) :
    SeenThrough State.Of.blankUnread (pushTx w s) (pushTx w s.blankUnread) :=
  withCtlr_seen fun _ => regWrite_seen _ _ s

theorem respond_seen (k : Kind) (d : Word) (p : Bool) (s : State) :
    SeenThrough State.Of.blankUnread (respond k d p s) (respond k d p s.blankUnread) :=
  (portEvent_seen _ _ s).andThen fun _ => rfl

theorem accept_seen (d : Descriptor) (s : State) :
    SeenThrough State.Of.blankUnread (accept d s) (accept d s.blankUnread) :=
  .ite rfl rfl

theorem acceptPayload_seen (d : Descriptor) (s : State) :
    SeenThrough State.Of.blankUnread (acceptPayload d s) (acceptPayload d s.blankUnread) :=
  .ite (.ite (accept_seen d s) rfl) rfl

theorem advanceWord_seen (read : Bool) (s : State) :
    SeenThrough State.Of.blankUnread (advanceWord read s) (advanceWord read s.blankUnread) :=
  .ite rfl (.ite rfl (.ite rfl rfl))

theorem pollMiss_seen (again : SeqState) (s : State) :
    SeenThrough State.Of.blankUnread (pollMiss again s) (pollMiss again s.blankUnread) :=
  (portEvent_seen _ _ s).andThen fun t => congrArg Host.Outcome.next (countSample_blankUnread again t)

theorem fetchWord_seen (s : State) :
    SeenThrough blankAfterRead (fetchWord s) (fetchWord s.blankUnread) :=
  .ite rfl (.ite (memRead4_seen s.ptr s) (memReadBytes_seen s.ptr s))

theorem storeWord_seen (s : State) :
    SeenThrough State.Of.blankUnread (storeWord s) (storeWord s.blankUnread) :=
  .ite (memWriteBytes_seen ..) (.ite (memWrite4_seen ..) (memWriteBytes_seen ..))

theorem execHdr2_seen (size : BitVec 12) (s : State) :
    SeenThrough State.Of.blankUnread (execHdr2 size s) (execHdr2 size s.blankUnread) :=
  (pushTx_seen _ s).andThen fun _ => rfl

/-- HDR2 draws a size for `d_len = 0` only, and the draw counter is no part of the table. -/
theorem execHdrHdr2_seen (s : State) :
    SeenThrough State.Of.blankUnread (execHdrHdr2 s) (execHdrHdr2 s.blankUnread) := by
  have hlen : s.blankUnread.dLen = s.dLen := rfl
  unfold execHdrHdr2
  rw [hlen]
  split
  · exact execHdr2_seen _ s.drawn
  · exact execHdr2_seen _ s

theorem judgeSnapshot_seen (v : Word) (s : State) :
    SeenThrough State.Of.blankUnread (judgeSnapshot v s) (judgeSnapshot v s.blankUnread) :=
  .ite rfl (.ite rfl (.ite rfl (pollMiss_seen .doneWait s)))

theorem execSeqCheck_seen (s : State) :
    SeenThrough State.Of.blankUnread (execSeqCheck s) (execSeqCheck s.blankUnread) := by
  have hdC : s.blankUnread.dC = s.dC := rfl
  unfold execSeqCheck
  rw [hdC, blankUnread_ct_getElem?]
  cases s.ct[s.dC.toNat]? with
  | none => rfl
  | some c => exact .ite rfl (.ite rfl (.ite rfl rfl))

theorem commandWords_seen (c0 : Word) (c1 : Addr) (s : State) :
    SeenThrough State.Of.blankUnread (commandWords c0 c1 s) (commandWords c0 c1 s.blankUnread) := by
  unfold commandWords
  split
  · split
    · exact accept_seen _ s
    · exact acceptPayload_seen _ s
    · exact acceptPayload_seen _ s
    · exact accept_seen _ s
  · rfl

/-! ### Blanking and a step -/

theorem step_seen {s : State} (h : s.st ≠ .idle) :
    SeenThrough State.Of.blankUnread (step s) (step s.blankUnread) := by
  have hblank : s.blankUnread.st = s.st := rfl
  rw [step_eq_visit, step_eq_visit, State.Of.visit, State.Of.visit, hblank]
  cases hst : s.st with
  | idle => exact absurd hst h
  | check => exact execSeqCheck_seen s
  | clrRd => exact withCtlr_seen fun _ => (regRead_seen _ s).andThen fun _ => rfl
  | clrWr => exact withCtlr_seen fun _ => (regWrite_seen _ _ s).andThen fun _ => rfl
  | hdr1 => exact withCtlr_seen fun _ => (pushTx_seen _ s).andThen fun _ => rfl
  | hdr2 => exact execHdrHdr2_seen s
  | hdr3 => exact (pushTx_seen _ s).andThen fun t => congrArg Host.Outcome.next (enterLoop_blankUnread t)
  | wrFetch =>
    exact (fetchWord_seen s).andThen fun (w, t) =>
      congrArg (fun u : State => Host.Outcome.next (u.goto .wrPush)) (stageWord_blankUnread w t)
  | wrPush => exact (pushTx_seen _ s).andThen fun _ => rfl
  | wrWait =>
    exact withCtlr_seen fun _ => (regRead_seen _ s).andThen fun (_, t) =>
      .ite (advanceWord_seen false t) (pollMiss_seen .wrWait t)
  | rdWait =>
    exact withCtlr_seen fun _ => (regRead_seen _ s).andThen fun (_, t) => .ite rfl (pollMiss_seen .rdWait t)
  | rdPop => exact withCtlr_seen fun _ => (regRead_seen _ s).andThen fun _ => rfl
  | rdStore => exact (storeWord_seen s).andThen fun t => advanceWord_seen true t
  | doneWait =>
    exact withCtlr_seen fun _ => (regRead_seen _ s).andThen fun (v, t) => judgeSnapshot_seen v (t.setSnap v)
  | recReset => exact withCtlr_seen fun _ => (portEvent_seen _ _ s).andThen fun _ => rfl
  | recCnfg =>
    refine withCtlr_seen fun c => (regWrite_seen _ _ s).andThen fun t => congrArg Host.Outcome.next ?_
    rw [apply_ite State.Of.blankUnread, ← finishRecovery_blankUnread]
    rfl
  | recSlRd => exact withCtlr_seen fun _ => (regRead_seen _ s).andThen fun _ => rfl
  | recSlWr =>
    exact withCtlr_seen fun c => (regWrite_seen _ _ s).andThen fun t =>
      congrArg Host.Outcome.next (finishRecovery_blankUnread c t)
  | respond => exact respond_seen _ _ _ s

/-- What is seen through blanking looks the same once both are blanked. -/
theorem SeenThrough.viewed_blankUnread {o o' : Result State} (h : SeenThrough State.Of.blankUnread o o') :
    viewed State.Of.blankUnread o = viewed State.Of.blankUnread o' := by
  subst h
  cases o with
  | next s => exact congrArg Host.Outcome.next (blankUnread_blankUnread s).symm
  | fault r => rfl
  | refused r => rfl

/-- A configuration write replaces the three fields, so they may differ before it (10_state.md R25). -/
theorem cfgWrite_viewed_blankUnread (index : Nat) (r : CfgRecord) (s : State) :
    viewed State.Of.blankUnread (cfgWrite index r s) =
      viewed State.Of.blankUnread (cfgWrite index r s.blankUnread) := by
  have hst : s.blankUnread.st = s.st := rfl
  unfold cfgWrite
  rw [hst, blankUnread_ct_getElem?]
  split
  · cases s.ct[index]? with
    | none => rfl
    | some old =>
      by_cases hid : r.id.toNat = index
      · have hentry : (configured old.blankUnread r).blankUnread = (configured old r).blankUnread := rfl
        simp only [Option.map_some, hid, if_true, viewed, blankUnread_setTable_setIfInBounds, hentry,
          blankUnread_blankUnread]
      · simp only [Option.map_some, hid, if_false, viewed]
  · rfl

theorem execSeqIdle_viewed_blankUnread (s : State) :
    viewed State.Of.blankUnread (execSeqIdle s) = viewed State.Of.blankUnread (execSeqIdle s.blankUnread) := by
  have hhost : s.blankUnread.hostIn = s.hostIn := rfl
  unfold execSeqIdle
  rw [hhost]
  cases s.hostIn with
  | nil => exact congrArg Host.Outcome.next (blankUnread_blankUnread s).symm
  | cons a rest =>
    cases a with
    | command c0 c1 => exact (commandWords_seen c0 c1 (s.setHostIn rest)).viewed_blankUnread
    | cfgWrite index r => exact cfgWrite_viewed_blankUnread index r (s.setHostIn rest)

/-- 10_state.md R24: the three fields are read by no rule. -/
theorem step_viewed_blankUnread (s : State) :
    viewed State.Of.blankUnread (step s) = viewed State.Of.blankUnread (step s.blankUnread) := by
  by_cases h : s.st = .idle
  · have h' : s.blankUnread.st = .idle := h
    rw [step_idle h, step_idle h']
    exact execSeqIdle_viewed_blankUnread s
  · exact (step_seen h).viewed_blankUnread

end Noninterference

/-! ## What a step does to the controller table (10_state.md R23 to R25) -/

theorem commandWords_ct {c0 : Word} {c1 : Addr} {s t : State} (h : commandWords c0 c1 s = .next t) : t.ct = s.ct := by
  unfold commandWords at h
  split at h
  · split at h
    · obtain ⟨-, rfl⟩ := accept_eq_next.mp h
      rfl
    · obtain ⟨-, -, rfl⟩ := acceptPayload_eq_next.mp h
      rfl
    · obtain ⟨-, -, rfl⟩ := acceptPayload_eq_next.mp h
      rfl
    · obtain ⟨-, rfl⟩ := accept_eq_next.mp h
      rfl
  · cases h

/-- IDLE leaves the table, unless it takes a configuration write. -/
theorem execSeqIdle_ct {s t : State} (hcfg : ∀ index r rest, s.hostIn ≠ .cfgWrite index r :: rest)
    (h : execSeqIdle s = .next t) : t.ct = s.ct := by
  unfold execSeqIdle at h
  split at h
  · cases h
    rfl
  · rename_i a rest hhost
    cases a with
    | command c0 c1 => exact commandWords_ct (s := s.setHostIn rest) h
    | cfgWrite index r => exact absurd hhost (hcfg index r rest)

theorem execSeqCheck_ct {s t : State} (h : execSeqCheck s = .next t) : t.ct = s.ct := by
  obtain ⟨k, -, rfl⟩ | ⟨c, -, -, rfl⟩ | ⟨c, -, -, -, -, rfl⟩ := execSeqCheck_next h <;> rfl

theorem enterLoop_ct (s : State) : (enterLoop s).ct = s.ct := by rw [enterLoop_eq]

theorem stageWord_ct (w : Word) (s : State) : (stageWord w s).ct = s.ct := by
  obtain ⟨g, d, h, -, -⟩ := stageWord_spec w s
  rw [h]

theorem advanceWord_ct {read : Bool} {s t : State} (h : advanceWord read s = .next t) : t.ct = s.ct := by
  obtain ⟨-, rfl⟩ := advanceWord_eq_next.mp h
  split
  · rfl
  · split <;> rfl

theorem pollMiss_ct {again : SeqState} {s t : State} (h : pollMiss again s = .next t) : t.ct = s.ct := by
  obtain ⟨-, rfl⟩ | ⟨-, rfl⟩ := pollMiss_next h <;> rfl

theorem judgeSnapshot_ct {v : Word} {s t : State} (h : judgeSnapshot v s = .next t) : t.ct = s.ct := by
  obtain ⟨-, rfl⟩ | ⟨-, -, rfl⟩ | ⟨-, -, -, rfl⟩ | ⟨-, -, -, hmiss⟩ := judgeSnapshot_next h
  · rfl
  · rfl
  · rfl
  · exact pollMiss_ct hmiss

theorem finishRecovery_ct (c : Ctlr) (s : State) :
    (finishRecovery c s).ct = if s.dInit then s.ct.setIfInBounds s.dC.toNat { c with inited := true } else s.ct := by
  rw [finishRecovery_eq]

/-- The table after a step other than a configuration write: as it was, or, at the end of INIT's recovery, with `inited`
set in the command's entry (10_state.md R23, R24; 43_recovery.md R196). -/
theorem step_ct {s t : State} (hcfg : s.st = .idle → ∀ index r rest, s.hostIn ≠ .cfgWrite index r :: rest)
    (h : step s = .next t) :
    t.ct = s.ct ∨ ∃ c, (s.st = .recCnfg ∨ s.st = .recSlWr) ∧ s.dInit = true ∧ s.ct[s.dC.toNat]? = some c ∧
      t.ct = s.ct.setIfInBounds s.dC.toNat { c with inited := true } := by
  cases hst : s.st with
  | idle => exact .inl (execSeqIdle_ct (hcfg hst) (step_idle hst ▸ h))
  | check => exact .inl (execSeqCheck_ct (step_check hst ▸ h))
  | clrRd => obtain ⟨c, -, -, -, rfl⟩ := (step_clrRd hst).mp h; exact .inl rfl
  | clrWr => obtain ⟨c, -, -, -, rfl⟩ := (step_clrWr hst).mp h; exact .inl rfl
  | hdr1 => obtain ⟨c, -, -, -, rfl⟩ := (step_hdr1 hst).mp h; exact .inl rfl
  | hdr2 =>
    obtain ⟨c, -, -, -, rfl⟩ := (step_hdr2 hst).mp h
    left
    split <;> rfl
  | hdr3 => obtain ⟨c, -, -, -, rfl⟩ := (step_hdr3 hst).mp h; exact .inl (enterLoop_ct _)
  | wrFetch =>
    obtain ⟨w, es, n, d, rfl, -, -⟩ := execPushwWrFetch_next (step_wrFetch hst ▸ h)
    exact .inl (stageWord_ct w _)
  | wrPush => obtain ⟨c, -, -, -, rfl⟩ := (step_wrPush hst).mp h; exact .inl rfl
  | wrWait =>
    obtain ⟨c, -, -, -, hsample⟩ := (step_wrWait hst).mp h
    left
    split at hsample
    · simpa using advanceWord_ct hsample
    · simpa using pollMiss_ct hsample
  | rdWait =>
    obtain ⟨c, -, -, -, hsample⟩ := (step_rdWait hst).mp h
    left
    split at hsample
    · cases hsample
      rfl
    · simpa using pollMiss_ct hsample
  | rdPop => obtain ⟨c, -, -, -, rfl⟩ := (step_rdPop hst).mp h; exact .inl rfl
  | rdStore =>
    obtain ⟨-, es, n, rfl, -⟩ := execPopwRdStore_next (step_rdStore hst ▸ h)
    exact .inl rfl
  | doneWait =>
    obtain ⟨c, -, -, -, hjudge⟩ := (step_doneWait hst).mp h
    exact .inl (by simpa using judgeSnapshot_ct hjudge)
  | recReset => obtain ⟨c, -, -, rfl⟩ := (step_recReset hst).mp h; exact .inl rfl
  | recCnfg =>
    obtain ⟨c, hc, -, -, rfl⟩ := (step_recCnfg hst).mp h
    cases hdvc : c.isDvc with
    | false => exact .inl rfl
    | true =>
      cases hinit : s.dInit with
      | false => exact .inl (by simp [finishRecovery_ct, hinit])
      | true => exact .inr ⟨c, .inl rfl, rfl, hc, by simp [finishRecovery_ct, hinit]⟩
  | recSlRd => obtain ⟨c, -, -, -, rfl⟩ := (step_recSlRd hst).mp h; exact .inl rfl
  | recSlWr =>
    obtain ⟨c, hc, -, -, rfl⟩ := (step_recSlWr hst).mp h
    cases hinit : s.dInit with
    | false => exact .inl (by simp [finishRecovery_ct, hinit])
    | true => exact .inr ⟨c, .inr rfl, rfl, hc, by simp [finishRecovery_ct, hinit]⟩
  | respond => obtain ⟨-, rfl⟩ := (step_respond hst).mp h; exact .inl rfl

/-- Setting `inited` in an entry changes no other field of any entry. -/
theorem setInited_keeps_other_fields {T : Vector Ctlr Config.params.nCtlr} {k : Nat} {c : Ctlr} (hc : T[k]? = some c)
    (i : Nat) :
    (T.setIfInBounds k { c with inited := true })[i]?.map (fun c => { c with inited := false }) =
      T[i]?.map (fun c => { c with inited := false }) := by
  rw [Vector.getElem?_setIfInBounds]
  by_cases hi : k = i
  · subst hi
    obtain ⟨hk, -⟩ := Vector.getElem?_eq_some_iff.mp hc
    rw [if_pos rfl, if_pos hk, hc]
    rfl
  · rw [if_neg hi]

/-! ## The obligations of 10_state.md -/

/-- Settles O52: every step commutes with blanking the three fields up to those fields, and the only table write of a
step that is no configuration write sets `inited`. -/
theorem tableFieldsReadAndWritten : Obligations.TableFieldsReadAndWritten := by
  refine ⟨step_viewed_blankUnread, fun s t hcfg hstep i => ?_⟩
  obtain hct | ⟨c, -, -, hc, hct⟩ := step_ct hcfg hstep
  · rw [hct]
  · rw [hct]
    exact setInited_keeps_other_fields hc i

/-- Settles O60, from the reset value of the table as `N_CTLR` copies of the zero entry. -/
theorem resetLeavesAZeroTableAndIdle : Obligations.ResetLeavesAZeroTableAndIdle := by
  refine ⟨fun i hi => ?_, rfl, rfl⟩
  have hct : State.reset.ct = Vector.replicate Config.params.nCtlr Ctlr.zero := rfl
  rw [hct, Vector.getElem?_replicate, if_pos hi]
  rfl

end Sys2Proof.Machine

/-! ## The events of a step (20_memory.md R62, R69)

`State.Of.Performs` says for each visit which port events it may perform, and `step_events` that a step adds only such
events to the trace; what the registers of a step are is then read off the relation. -/

namespace Sys2Proof.Machine

section StepEvents

/-- The port events the visit of `s.st` may perform, each with the rows of Table 44-1 that perform it. -/
inductive State.Of.Performs (s : State) : Event → Prop
  | readIntStatus {c : Ctlr} {v : Word} (hst : s.st = .clrRd ∨ s.st = .doneWait) (hc : s.ct[s.dC.toNat]? = some c) :
    s.Performs (.rr (intStatusAddr c) v)
  | clearIntStatus {c : Ctlr} {v : Word} (hst : s.st = .clrWr) (hc : s.ct[s.dC.toNat]? = some c) :
    s.Performs (.rw (intStatusAddr c) v)
  | pushTx {c : Ctlr} {v : Word} (hst : s.st ∈ [.hdr1, .hdr2, .hdr3, .wrPush]) (hc : s.ct[s.dC.toNat]? = some c) :
    s.Performs (.rw (txFifoAddr c) v)
  | fetch {e : Event} (hst : s.st = .wrFetch) (hp : s.dProbe = false) (he : e.isBufferRead = true) : s.Performs e
  | readFifoStatus {c : Ctlr} {v : Word} (hst : s.st = .wrWait ∨ s.st = .rdWait) (hc : s.ct[s.dC.toNat]? = some c) :
    s.Performs (.rr (fifoStatusAddr c) v)
  | delay (hst : s.st.isPoll = true) : s.Performs (.dly Config.params.pollUs)
  | popRx {c : Ctlr} {v : Word} (hst : s.st = .rdPop) (hc : s.ct[s.dC.toNat]? = some c) :
    s.Performs (.rr (rxFifoAddr c) v)
  | store {e : Event} (hst : s.st = .rdStore) (he : e.isBufferWrite = true) : s.Performs e
  | resetPeriph {c : Ctlr} (hst : s.st = .recReset) (hc : s.ct[s.dC.toNat]? = some c) : s.Performs (.prst c.periphId)
  | writeCnfg {c : Ctlr} {v : Word} (hst : s.st = .recCnfg) (hc : s.ct[s.dC.toNat]? = some c) :
    s.Performs (.rw (cnfgAddr c) v)
  | readSlCnfg {c : Ctlr} {v : Word} (hst : s.st = .recSlRd) (hc : s.ct[s.dC.toNat]? = some c) :
    s.Performs (.rr (slCnfgAddr c) v)
  | writeSlCnfg {c : Ctlr} {v : Word} (hst : s.st = .recSlWr) (hc : s.ct[s.dC.toNat]? = some c) :
    s.Performs (.rw (slCnfgAddr c) v)
  | respond {k : Kind} {d : Word} {p : Bool} (hst : s.st = .respond) : s.Performs (.rsp k d p)

/-- From `s` to `t` the trace grew, by events that all satisfy `Q`. -/
def AddsOnly (Q : Event → Prop) (s t : State) : Prop := ∃ es, t.trace = s.trace ++ es ∧ ∀ e ∈ es, Q e

variable {Q : Event → Prop} {s t u : State}

theorem AddsOnly.none (h : t.trace = s.trace) : AddsOnly Q s t := ⟨[], by simp [h], by simp⟩

theorem AddsOnly.one {e : Event} (h : t.trace = s.trace ++ [e]) (he : Q e) : AddsOnly Q s t :=
  ⟨[e], h, by simpa using he⟩

theorem AddsOnly.trans (h₁ : AddsOnly Q s t) (h₂ : AddsOnly Q t u) : AddsOnly Q s u := by
  obtain ⟨es₁, ht, he₁⟩ := h₁
  obtain ⟨es₂, hu, he₂⟩ := h₂
  refine ⟨es₁ ++ es₂, by rw [hu, ht, List.append_assoc], fun e he => ?_⟩
  obtain he | he := List.mem_append.mp he
  · exact he₁ e he
  · exact he₂ e he

theorem AddsOnly.mono {R : Event → Prop} (h : AddsOnly Q s t) (hQR : ∀ e, Q e → R e) : AddsOnly R s t := by
  obtain ⟨es, ht, he⟩ := h
  exact ⟨es, ht, fun e hmem => hQR e (he e hmem)⟩

/-! ### The trace after the shared operations -/

theorem readRecord_adds {a : Addr} {v : Word} (hQ : Q (.rr a v)) : AddsOnly Q s (s.record (.rr a v)).consume :=
  .one rfl hQ

theorem enterLoop_trace (s : State) : (enterLoop s).trace = s.trace := by rw [enterLoop_eq]

theorem finishRecovery_trace (c : Ctlr) (s : State) : (finishRecovery c s).trace = s.trace := by rw [finishRecovery_eq]

theorem stageWord_trace (w : Word) (s : State) : (stageWord w s).trace = s.trace := by
  obtain ⟨g, d, h, -, -⟩ := stageWord_spec w s
  rw [h]

theorem execSeqIdle_trace (h : execSeqIdle s = .next t) : t.trace = s.trace := by
  obtain ⟨-, rfl⟩ | ⟨rest, d, -, -, rfl⟩ | ⟨rest, index, r, old, -, -, -, rfl⟩ := execSeqIdle_next h <;> rfl

theorem execSeqCheck_trace (h : execSeqCheck s = .next t) : t.trace = s.trace := by
  obtain ⟨k, -, rfl⟩ | ⟨c, -, -, rfl⟩ | ⟨c, -, -, -, -, rfl⟩ := execSeqCheck_next h <;> rfl

theorem advanceWord_trace {read : Bool} (h : advanceWord read s = .next t) : t.trace = s.trace := by
  obtain ⟨-, rfl⟩ := advanceWord_eq_next.mp h
  split
  · rfl
  · split <;> rfl

theorem pollMiss_adds {again : SeqState} (hQ : Q (.dly Config.params.pollUs)) (h : pollMiss again s = .next t) :
    AddsOnly Q s t := by
  obtain ⟨-, rfl⟩ | ⟨-, rfl⟩ := pollMiss_next h <;> exact .one rfl hQ

theorem judgeSnapshot_adds {v : Word} (hQ : Q (.dly Config.params.pollUs)) (h : judgeSnapshot v s = .next t) :
    AddsOnly Q s t := by
  obtain ⟨-, rfl⟩ | ⟨-, -, rfl⟩ | ⟨-, -, -, rfl⟩ | ⟨-, -, -, hmiss⟩ := judgeSnapshot_next h
  · exact .none rfl
  · exact .none rfl
  · exact .none rfl
  · exact pollMiss_adds hQ hmiss

theorem storeEvents_isBufferWrite (a : Addr) (w : Word) (n : Nat) :
    ∀ e ∈ (storeEvents a w n : List Event), e.isBufferWrite = true := by
  induction n with
  | zero => simp [storeEvents]
  | succ n ih =>
    intro e he
    obtain he | he := List.mem_append.mp he
    · exact ih e he
    · rw [List.mem_singleton.mp he]
      rfl

/-- A fetch only reads the buffer, and PROBE's fetch performs no event (41_word_mover.md R158, R163). -/
theorem execPushwWrFetch_adds (h : execPushwWrFetch s = .next t) :
    AddsOnly (fun e => s.dProbe = false ∧ e.isBufferRead = true) s t := by
  obtain ⟨w, es, n, d, rfl, hprobe, hread⟩ := execPushwWrFetch_next h
  refine ⟨es, stageWord_trace w _, fun e he => ?_⟩
  cases hp : s.dProbe with
  | true => simp [(hprobe hp).1] at he
  | false =>
    refine ⟨rfl, ?_⟩
    obtain ⟨-, -, ⟨-, rfl⟩ | rfl⟩ := hread hp
    · rw [List.mem_singleton.mp he]
      rfl
    · obtain ⟨j, -, rfl⟩ := List.mem_map.mp he
      rfl

/-- A store only writes the buffer (41_word_mover.md R157, R158). -/
theorem execPopwRdStore_adds (h : execPopwRdStore s = .next t) : AddsOnly (fun e => e.isBufferWrite = true) s t := by
  obtain ⟨-, es, n, rfl, rfl | rfl⟩ := execPopwRdStore_next h
  · exact .one rfl rfl
  · exact ⟨_, rfl, storeEvents_isBufferWrite _ _ _⟩

/-! ### The events of a step -/

/-- A step adds to the trace only events its visit performs. -/
theorem step_events (h : step s = .next t) : AddsOnly s.Performs s t := by
  cases hst : s.st with
  | idle => exact .none (execSeqIdle_trace (step_idle hst ▸ h))
  | check => exact .none (execSeqCheck_trace (step_check hst ▸ h))
  | clrRd =>
    obtain ⟨c, hc, -, -, rfl⟩ := (step_clrRd hst).mp h
    exact .one rfl (.readIntStatus (.inl hst) hc)
  | clrWr =>
    obtain ⟨c, hc, -, -, rfl⟩ := (step_clrWr hst).mp h
    exact .one rfl (.clearIntStatus hst hc)
  | hdr1 =>
    obtain ⟨c, hc, -, -, rfl⟩ := (step_hdr1 hst).mp h
    exact .one rfl (.pushTx (by simp [hst]) hc)
  | hdr2 =>
    obtain ⟨c, hc, -, -, rfl⟩ := (step_hdr2 hst).mp h
    refine .one ?_ (.pushTx (v := hdr2Word (sizeField s.dLen s.pad)) (by simp [hst]) hc)
    split <;> rfl
  | hdr3 =>
    obtain ⟨c, hc, -, -, rfl⟩ := (step_hdr3 hst).mp h
    exact .one (enterLoop_trace _) (.pushTx (by simp [hst]) hc)
  | wrFetch => exact (execPushwWrFetch_adds (step_wrFetch hst ▸ h)).mono fun e he => .fetch hst he.1 he.2
  | wrPush =>
    obtain ⟨c, hc, -, -, rfl⟩ := (step_wrPush hst).mp h
    exact .one rfl (.pushTx (by simp [hst]) hc)
  | wrWait =>
    obtain ⟨c, hc, -, -, hsample⟩ := (step_wrWait hst).mp h
    refine .trans (readRecord_adds (v := s.answer) (.readFifoStatus (.inl hst) hc)) ?_
    split at hsample
    · exact .none (advanceWord_trace hsample)
    · exact pollMiss_adds (.delay (by simp [hst, SeqState.isPoll])) hsample
  | rdWait =>
    obtain ⟨c, hc, -, -, hsample⟩ := (step_rdWait hst).mp h
    refine .trans (readRecord_adds (v := s.answer) (.readFifoStatus (.inr hst) hc)) ?_
    split at hsample
    · cases hsample
      exact .none rfl
    · exact pollMiss_adds (.delay (by simp [hst, SeqState.isPoll])) hsample
  | rdPop =>
    obtain ⟨c, hc, -, -, rfl⟩ := (step_rdPop hst).mp h
    exact .one rfl (.popRx hst hc)
  | rdStore => exact (execPopwRdStore_adds (step_rdStore hst ▸ h)).mono fun e he => .store hst he
  | doneWait =>
    obtain ⟨c, hc, -, -, hjudge⟩ := (step_doneWait hst).mp h
    exact .trans (.one rfl (.readIntStatus (.inr hst) hc))
      (judgeSnapshot_adds (.delay (by simp [hst, SeqState.isPoll])) hjudge)
  | recReset =>
    obtain ⟨c, hc, -, rfl⟩ := (step_recReset hst).mp h
    exact .one rfl (.resetPeriph hst hc)
  | recCnfg =>
    obtain ⟨c, hc, -, -, rfl⟩ := (step_recCnfg hst).mp h
    refine .one ?_ (.writeCnfg (v := Config.params.cnfgPacketValue) hst hc)
    split
    · exact finishRecovery_trace _ _
    · rfl
  | recSlRd =>
    obtain ⟨c, hc, -, -, rfl⟩ := (step_recSlRd hst).mp h
    exact .one rfl (.readSlCnfg hst hc)
  | recSlWr =>
    obtain ⟨c, hc, -, -, rfl⟩ := (step_recSlWr hst).mp h
    exact .one (finishRecovery_trace _ _) (.writeSlCnfg hst hc)
  | respond =>
    obtain ⟨-, rfl⟩ := (step_respond hst).mp h
    exact .one rfl (.respond hst)

/-! ### Register events stand at the registers of Table 20-1 -/

/-- A buffer event is no register event. -/
theorem registerIn_of_isBuffer {e : Event} (as : List Addr) (h : e.isBufferRead = true ∨ e.isBufferWrite = true) :
    e.registerIn as = true := by
  cases e with
  | rr | rw => simp [Event.Of.isBufferRead, Event.Of.isBufferWrite] at h
  | mr1 | mr4 | mw1 | mw4 | prst | dly | rsp => rfl

/-- The invariant keeps the two SL_CNFG visits to a standard controller, whose register map lists that register. -/
theorem slCnfgAddr_mem_registerMap {c : Ctlr} (hinv : s.Inv) (hst : s.st = .recSlRd ∨ s.st = .recSlWr)
    (hc : s.ct[s.dC.toNat]? = some c) : slCnfgAddr c ∈ registerMap c := by
  have hdvc : c.isDvc = false := by simpa [hc] using hinv.slCnfgStandard hst
  simp [registerMap, hdvc]

theorem State.Of.Performs.registerIn_registerMap {e : Event} (hinv : s.Inv) (h : s.Performs e) :
    e.registerIn ((s.ct[s.dC.toNat]?.map registerMap).getD []) = true := by
  cases h with
  | readIntStatus hst hc | clearIntStatus hst hc | pushTx hst hc | readFifoStatus hst hc | popRx hst hc
  | writeCnfg hst hc => simp [Event.Of.registerIn, hc, registerMap]
  | fetch hst hp he => exact registerIn_of_isBuffer _ (.inl he)
  | store hst he => exact registerIn_of_isBuffer _ (.inr he)
  | readSlCnfg hst hc => simpa [Event.Of.registerIn, hc] using slCnfgAddr_mem_registerMap hinv (.inl hst) hc
  | writeSlCnfg hst hc => simpa [Event.Of.registerIn, hc] using slCnfgAddr_mem_registerMap hinv (.inr hst) hc
  | delay | resetPeriph | respond => rfl

end StepEvents

/-! ## Port events the environment does not complete (20_memory.md R79) -/

section Stuck

theorem portEvent_stuck {P : Params} {p : Port} {e : Event.Of P} {s : State.Of P} (h : s.portLimit = some 0) :
    portEvent p e s = .fault (.portStuck p) := by
  simp [portEvent, State.Of.admits, h]

theorem regRead_stuck {P : Params} {a : Addr P} {s : State.Of P} (ha : aligned4 a = true) (h : s.portLimit = some 0) :
    regRead a s = .fault (.portStuck .register) := by
  rw [regRead, if_pos ha, portEvent_stuck h, andThen_fault]

theorem regWrite_stuck {P : Params} {a : Addr P} {v : Word} {s : State.Of P} (ha : aligned4 a = true)
    (h : s.portLimit = some 0) : regWrite a v s = .fault (.portStuck .register) := by
  rw [regWrite, if_pos ha, portEvent_stuck h]

theorem respond_stuck {P : Params} {k : Kind} {d : Word} {p : Bool} {s : State.Of P} (h : s.portLimit = some 0) :
    respond k d p s = .fault (.portStuck .response) := by
  rw [respond, portEvent_stuck h, andThen_fault]

theorem pollMiss_stuck {P : Params} {again : SeqState} {s : State.Of P} (h : s.portLimit = some 0) :
    pollMiss again s = .fault (.portStuck .time) := by
  rw [pollMiss, delay, portEvent_stuck h, andThen_fault]

variable {s : State} {c : Ctlr}

/-- A fetch of a readable word is stuck where fewer reads complete than it performs: one aligned, else four. -/
theorem fetchWord_stuck {n : Nat} (hp : s.dProbe = false) (hw : (memWord s.mem s.ptr).isSome = true)
    (hl : s.portLimit = some n) (hn : if s.ptr.toNat % 4 = 0 then n < 1 else n < 4) :
    fetchWord s = .fault (.portStuck .buffer) := by
  obtain ⟨w, hw⟩ := Option.isSome_iff_exists.mp hw
  by_cases ha : s.ptr.toNat % 4 = 0
  · obtain rfl : n = 0 := by simpa [ha] using hn
    simp [fetchWord, hp, aligned4, ha, memRead4, hw, portEvent_stuck hl]
  · simp only [ha, if_false] at hn
    simp [fetchWord, hp, aligned4, ha, memReadBytes_stuck hw hl hn]

/-- A store is stuck where fewer writes complete than it performs: `rem` of a partial word, else one aligned or four. -/
theorem storeWord_stuck {n : Nat} (hl : s.portLimit = some n)
    (hn : n < if s.words = 1 ∧ s.rem ≠ 0 then s.rem.toNat else if s.ptr.toNat % 4 = 0 then 1 else 4) :
    storeWord s = .fault (.portStuck .buffer) := by
  unfold storeWord
  by_cases hpart : s.words = 1 ∧ s.rem ≠ 0
  · rw [if_pos hpart] at hn
    rw [if_pos (by simpa [partialFinal] using hpart)]
    exact memWriteBytes_stuck _ _ _ _ _ hl hn
  · rw [if_neg hpart] at hn
    rw [if_neg (by simpa [partialFinal] using hpart)]
    by_cases ha : s.ptr.toNat % 4 = 0
    · obtain rfl : n = 0 := by simpa [ha] using hn
      simp [aligned4, ha, memWrite4, portEvent_stuck hl]
    · rw [if_neg ha] at hn
      rw [if_neg (by simpa [aligned4] using ha)]
      exact memWriteBytes_stuck _ _ _ _ _ hl hn

section Visit

variable (hc : s.ct[s.dC.toNat]? = some c)
include hc

theorem readVisit_stuck {f : Ctlr → Addr} {g : Word × State → Result State} (ha : aligned4 (f c) = true)
    (h : s.portLimit = some 0) :
    (withCtlr s fun c => andThen (regRead (f c) s) g) = .fault (.portStuck .register) := by
  rw [withCtlr_of hc, regRead_stuck ha h, andThen_fault]

theorem writeVisit_stuck {f : Ctlr → Addr} {v : Word} {g : Ctlr → State → Result State} (ha : aligned4 (f c) = true)
    (h : s.portLimit = some 0) :
    (withCtlr s fun c => andThen (regWrite (f c) v s) (g c)) = .fault (.portStuck .register) := by
  rw [withCtlr_of hc, regWrite_stuck ha h, andThen_fault]

theorem pushVisit_stuck {w : Word} {g : State → Result State} (ha : aligned4 (txFifoAddr c) = true)
    (h : s.portLimit = some 0) : andThen (pushTx w s) g = .fault (.portStuck .register) := by
  rw [pushTx, withCtlr_of hc, regWrite_stuck ha h, andThen_fault]

/-- A sample visit whose read is the last event that completes goes on with none left. -/
theorem readVisit_lastEvent {f : Ctlr → Addr} {g : Word × State → Result State} {r : Fault}
    (ha : aligned4 (f c) = true) (h : s.portLimit = some 1)
    (hg : ∀ t : State, t.portLimit = some 0 → g (s.answer, t) = .fault r) :
    (withCtlr s fun c => andThen (regRead (f c) s) g) = .fault r := by
  rw [withCtlr_of hc, regRead_admitted ha (by simp [State.Of.admits, h]), andThen_next]
  exact hg _ (by simp [h])

end Visit

/-- The formats of the three header places hold the three header rows only. -/
theorem eq_hdr_of_format {i : Instr} (h : i.format ∈ [.hdr1, .hdr2, .hdr3]) :
    (∃ seq ctlrId, i = .hdr1 seq ctlrId) ∨ (∃ size, i = .hdr2 size) ∨ ∃ read addr7, i = .hdr3 read addr7 := by
  cases i with
  | hdr1 seq ctlrId => exact .inl ⟨seq, ctlrId, rfl⟩
  | hdr2 size => exact .inr (.inl ⟨size, rfl⟩)
  | hdr3 read addr7 => exact .inr (.inr ⟨read, addr7, rfl⟩)
  | _ => simp [Instr.format] at h

/-- The response format holds the six response rows only. -/
theorem eq_responseOf_of_format {i : Instr} (h : i.format = .rsp) : ∃ k d p, i = responseOf k d p := by
  cases i with
  | rspOk p d => exact ⟨.ok, d, p, rfl⟩
  | rspTimeout p d => exact ⟨.timeout, d, p, rfl⟩
  | rspNoAcknowledge p d => exact ⟨.noAcknowledge, d, p, rfl⟩
  | rspArbitrationLost p d => exact ⟨.arbitrationLost, d, p, rfl⟩
  | rspUnsupportedAddressWidth p d => exact ⟨.unsupportedAddressWidth, d, p, rfl⟩
  | rspBusNotReady p d => exact ⟨.busNotReady, d, p, rfl⟩
  | _ => cases h

theorem exec_responseOf (k : Kind) (d : Word) (p : Bool) (s : State) :
    exec (responseOf k d p) s = respond k d p s := by
  cases k <;> rfl

/-- HDR2 forms its word and pushes it; a draw for `d_len = 0` before that completes no event. -/
theorem execHdrHdr2_stuck (hc : s.ct[s.dC.toNat]? = some c) (ha : aligned4 (txFifoAddr c) = true)
    (h : s.portLimit = some 0) : execHdrHdr2 s = .fault (.portStuck .register) := by
  unfold execHdrHdr2
  split
  · exact pushVisit_stuck (s := s.drawn) hc ha h
  · exact pushVisit_stuck hc ha h

end Stuck

/-! ## The obligations of 20_memory.md -/

/-- Settles O48: each event of a step is one its visit performs, and those stand at the entry's registers. -/
theorem onlyTheSixRegistersAreAccessed : Obligations.OnlyTheSixRegistersAreAccessed := by
  intro s t hinv hstep
  exact (step_events hstep).mono fun e he => he.registerIn_registerMap hinv

/-- Settles O57: each visit starts with its port event, so the stop of that event is the visit's; a byte-wise fetch or
store and a failing sample stop at the first of their events that is not completed. -/
theorem uncompletedPortEventsAreStuck : Obligations.UncompletedPortEventsAreStuck := by
  intro s c hc hctrl hregs
  obtain ⟨htx, hrx, hfifo, hint⟩ := fifoBlock_aligned hctrl
  obtain ⟨hcnfg, hsl⟩ := controlBlock_aligned hregs
  refine ⟨fun h0 => ⟨?_, fun i hi => ?_, ?_, respond_stuck h0, fun i hi => ?_⟩, fun n hl hp hw hn => ?_,
    fun n hl hn => ?_, fun h1 => ⟨fun hv => ?_, fun hv => ?_, fun hno harb hdone => ?_⟩⟩
  · simp only [List.forall_mem_cons]
    exact ⟨readVisit_stuck hc hint h0, writeVisit_stuck hc hint h0,
      (withCtlr_of hc).trans (pushVisit_stuck hc htx h0), execHdrHdr2_stuck hc htx h0, pushVisit_stuck hc htx h0,
      pushVisit_stuck hc htx h0, readVisit_stuck hc hfifo h0, readVisit_stuck hc hfifo h0, readVisit_stuck hc hrx h0,
      readVisit_stuck hc hint h0, writeVisit_stuck hc hcnfg h0, readVisit_stuck hc hsl h0,
      writeVisit_stuck hc hsl h0, List.forall_mem_nil _⟩
  · obtain ⟨seq, ctlrId, rfl⟩ | ⟨size, rfl⟩ | ⟨read, addr7, rfl⟩ := eq_hdr_of_format hi
    · exact pushVisit_stuck hc htx h0
    · exact pushVisit_stuck hc htx h0
    · exact pushVisit_stuck hc htx h0
  · simp [exec, execRecoverRecReset, withCtlr_of hc, periphReset, portEvent_stuck h0]
  · obtain ⟨k, d, p, rfl⟩ := eq_responseOf_of_format hi
    rw [exec_responseOf, respond_stuck h0]
  · simp [exec, execPushwWrFetch, fetchWord_stuck hp hw hl hn]
  · simp [exec, execPopwRdStore, storeWord_stuck hl hn]
  · refine readVisit_lastEvent hc hfifo h1 fun t ht => ?_
    simp [hv, pollMiss_stuck ht]
  · refine readVisit_lastEvent hc hfifo h1 fun t ht => ?_
    simp [hv, pollMiss_stuck ht]
  · refine readVisit_lastEvent hc hint h1 fun t ht => ?_
    have ht' : (t.setSnap s.answer).portLimit = some 0 := ht
    simp [judgeSnapshot, hno, harb, hdone, pollMiss_stuck ht']

end Sys2Proof.Machine

/-! ## What IDLE answers to a command (30_encoding.md R104, R105, R117)

The refusals of a command's words and lengths, and what acceptance latches. -/

namespace Sys2Proof

theorem decodeOp_reserved {code : BitVec 4} (h : code = 0 ∨ 5 ≤ code.toNat) :
    decodeOp code = .error .reservedOp := by
  obtain ⟨h1, h2, h3, h4⟩ : code ≠ 1 ∧ code ≠ 2 ∧ code ≠ 3 ∧ code ≠ 4 := by
    obtain rfl | h := h
    · decide
    · refine ⟨?_, ?_, ?_, ?_⟩ <;> rintro rfl <;> simp at h
  rw [decodeOp, if_neg h1, if_neg h2, if_neg h3, if_neg h4]

/-- Every reserved encoding of CMD0 (30_encoding.md R104); a reserved bit is found before a reserved `op`. -/
theorem decodeCmd0_reserved {c0 : Word}
    (h : c0.extractLsb' 28 4 = 0 ∨ 5 ≤ (c0.extractLsb' 28 4).toNat ∨ c0.extractLsb' 20 3 ≠ 0) :
    ∃ e, decodeCmd0 c0 = .error e := by
  unfold decodeCmd0
  by_cases hbits : c0.extractLsb' 20 3 = 0
  · have hop : c0.extractLsb' 28 4 = 0 ∨ 5 ≤ (c0.extractLsb' 28 4).toNat :=
      h.imp_right fun h => h.resolve_right fun hne => hne hbits
    rw [if_neg (not_not.mpr hbits), decodeOp_reserved hop]
    exact ⟨_, rfl⟩
  · rw [if_pos hbits]
    exact ⟨_, rfl⟩

theorem lengthInDomain_eq_false_iff {len : BitVec 13} {P : Params} :
    lengthInDomain len P = false ↔ len = 0 ∨ P.lenMax < len.toNat := by
  have hzero : len = 0 ↔ len.toNat = 0 := BitVec.toNat_inj.symm
  rw [hzero, ← Bool.not_eq_true, lengthInDomain, Bool.and_eq_true, decide_eq_true_eq, decide_eq_true_eq]
  omega

theorem addr8Of_toNat (addr7 : BitVec 7) (read : Bool) :
    (addr8Of addr7 read).toNat = 2 * addr7.toNat + read.toNat := by
  have hlt : read.toNat < 2 ^ 1 := read.toNat_lt
  have happend : addr8Of addr7 read = addr7 ++ BitVec.ofBool read := by
    rw [BitVec.append_def, BitVec.shiftLeftZeroExtend_eq, BitVec.setWidth'_eq]
    rfl
  rw [happend, BitVec.toNat_append, BitVec.toNat_ofBool, ← Nat.shiftLeft_add_eq_or_of_lt hlt, Nat.shiftLeft_eq]
  omega

namespace Machine

theorem commandWords_reserved {c0 : Word} {e : DecodeError} (h : decodeCmd0 c0 = .error e) (c1 : Addr) (s : State) :
    commandWords c0 c1 s = .refused .reservedEncoding := by
  rw [commandWords, h]

/-- IDLE takes the oldest command off the host port and runs its words (44_transactions.md R212). -/
theorem step_command {s : State} {c0 c1 : Word} {rest : List HostAction} (hst : s.st = .idle)
    (hhost : s.hostIn = .command c0 c1 :: rest) : step s = commandWords c0 c1 (s.setHostIn rest) := by
  rw [step_idle hst, execSeqIdle, hhost]
  rfl

theorem acceptPayload_refuses_length {P : Params} {d : Descriptor.Of P} {s : State.Of P} (hst : s.st = .idle)
    (hlen : lengthInDomain d.len P = false) : acceptPayload d s = .refused .lengthOutOfDomain := by
  simp [acceptPayload, hst, hlen]

section Acceptance

variable {s : State} (hst : s.st = .idle) (ctlr : BitVec 4) (ten : Bool) {len : BitVec 13} (addr7 : BitVec 7)
  (buf : Addr)

include hst

theorem exec_write_accepted (hlen : lengthInDomain len = true) :
    exec (.write ctlr ten len addr7 buf) s = .next ((s.latch (writeDescriptor ctlr ten len addr7 buf)).goto .check) :=
  acceptPayload_eq_next.mpr ⟨hst, hlen, rfl⟩

theorem exec_read_accepted (hlen : lengthInDomain len = true) :
    exec (.read ctlr ten len addr7 buf) s = .next ((s.latch (readDescriptor ctlr ten len addr7 buf)).goto .check) :=
  acceptPayload_eq_next.mpr ⟨hst, hlen, rfl⟩

theorem exec_probe_accepted :
    exec (.probe ctlr ten addr7 buf) s = .next ((s.latch (probeDescriptor ctlr ten addr7 buf)).goto .check) :=
  accept_eq_next.mpr ⟨hst, rfl⟩

end Acceptance

/-! ## The obligations of 30_encoding.md -/

/-- Settles O3: CMD0 of a reserved encoding does not decode, and IDLE refuses words that do not decode. -/
theorem reservedCommandsRefused : Obligations.ReservedCommandsRefused := by
  intro s c0 c1 rest hst hhost hreserved
  obtain ⟨e, he⟩ := decodeCmd0_reserved hreserved
  rw [step_command hst hhost, commandWords_reserved he]

/-- Settles O7, from the descriptor each of the three commands latches and the value of its `addr8`. -/
theorem addressAssembly : Obligations.AddressAssembly := by
  intro s ctlr ten len addr7 buf hst hlen
  exact ⟨⟨_, exec_write_accepted hst ctlr ten addr7 buf hlen, rfl, addr8Of_toNat addr7 false⟩,
    ⟨_, exec_probe_accepted hst ctlr ten addr7 buf, rfl, addr8Of_toNat addr7 false⟩,
    ⟨_, exec_read_accepted hst ctlr ten addr7 buf hlen, rfl, addr8Of_toNat addr7 true⟩⟩

/-- Settles O13: in IDLE, acceptance of either payload command tests the length domain before it latches anything. -/
theorem lengthsOutsideTheDomainRefused : Obligations.LengthsOutsideTheDomainRefused := by
  intro s ctlr ten len addr7 buf hst hout
  have hlen : lengthInDomain len = false := lengthInDomain_eq_false_iff.mpr hout
  exact ⟨acceptPayload_refuses_length hst hlen, acceptPayload_refuses_length hst hlen⟩

end Machine
end Sys2Proof

/-! ## The packet header as a run (40_header_encoder.md R140, R142)

Three visits of one table entry, each one write of TX_FIFO; the loop set-up ends the third. -/

namespace Sys2Proof.Machine

/-- A run goes on from where its first step goes on. -/
theorem run_succ_of_step {s t : State} (h : step s = .next t) (k : Nat) :
    Host.Core.run core (k + 1) s = Host.Core.run core k t := by
  have hcore : core.step s = .next t := h
  simp only [Host.Core.run, hcore]

/-- A visit that performs one of `n + 1` completed events leaves `n` to the state it enters. -/
theorem admits_record_goto {s : State} {n : Nat} (h : s.admits (n + 1) = true) (e : Event) (t : SeqState) :
    ((s.record e).goto t).admits n = true := admits_record s e n h

theorem ne_zero_of_lengthInDomain {len : BitVec 13} {P : Params} (h : lengthInDomain len P = true) : len ≠ 0 := by
  rintro rfl
  rw [lengthInDomain_eq_false_iff.mpr (.inl rfl)] at h
  exact absurd h Bool.false_ne_true

/-- The size field of a defined size takes nothing from the free value (30_encoding.md R108). -/
theorem sizeField_of_ne_zero {len : BitVec 13} (h : len ≠ 0) (d : Word) :
    sizeField len d = BitVec.ofNat 12 (len.toNat - 1) := if_neg h

/-- `rem`, two bits wide, holds the length modulo 4 (41_word_mover.md R150). -/
theorem ofNat_two_mod_four (n : Nat) : BitVec.ofNat 2 (n % 4) = BitVec.ofNat 2 n := by
  simp [← BitVec.toNat_inj]

section HeaderRun

variable {s : State} {c : Ctlr} (hc : s.ct[s.dC.toNat]? = some c) (htx : aligned4 (txFifoAddr c) = true)

include hc htx

/-- From HDR3, word 3 is written and the loop is set up (40_header_encoder.md R140, 41_word_mover.md R150). -/
theorem run_hdr3 (hst : s.st = .hdr3) (hadm : s.admits 1 = true) :
    Host.Core.run core 1 s =
      .next (enterLoop (s.record (.rw (txFifoAddr c) (hdr3Word s.dAddr8 s.dRead)))) :=
  run_succ_of_step ((step_hdr3 hst).mpr ⟨c, hc, htx, hadm, rfl⟩) 0

/-- From HDR2, with a length that is not 0, words 2 and 3 are written (40_header_encoder.md R140, R144). -/
theorem run_hdr2 (hst : s.st = .hdr2) (hadm : s.admits 2 = true) (hlen : s.dLen ≠ 0) :
    Host.Core.run core 2 s =
      .next (enterLoop (((s.record
        (.rw (txFifoAddr c) (hdr2Word (BitVec.ofNat 12 (s.dLen.toNat - 1))))).goto .hdr3).record
        (.rw (txFifoAddr c) (hdr3Word s.dAddr8 s.dRead)))) := by
  have hstep := (step_hdr2 hst).mpr ⟨c, hc, htx, admits_mono hadm (by decide), rfl⟩
  rw [if_neg hlen, sizeField_of_ne_zero hlen] at hstep
  rw [run_succ_of_step hstep]
  exact run_hdr3 hc htx rfl (admits_record_goto hadm _ _)

/-- From HDR1, with a length that is not 0, the three words are written (40_header_encoder.md R140, R143). -/
theorem run_hdr1 (hst : s.st = .hdr1) (hadm : s.admits 3 = true) (hlen : s.dLen ≠ 0) :
    Host.Core.run core 3 s =
      .next (enterLoop (((((s.record
        (.rw (txFifoAddr c) (hdr1Word Config.params.pktSeqId c.id))).goto .hdr2).record
        (.rw (txFifoAddr c) (hdr2Word (BitVec.ofNat 12 (s.dLen.toNat - 1))))).goto .hdr3).record
        (.rw (txFifoAddr c) (hdr3Word s.dAddr8 s.dRead)))) := by
  rw [run_succ_of_step ((step_hdr1 hst).mpr ⟨c, hc, htx, admits_mono hadm (by decide), rfl⟩)]
  exact run_hdr2 hc htx rfl (admits_record_goto hadm _ _) hlen

end HeaderRun

/-- Settles O20: each visit writes its word and leaves the entry and the descriptor as they were, so that the next one
finds them; the loop set-up after the third is then read off field by field. -/
theorem headerIsThreeWritesThenTheLoop : Obligations.HeaderIsThreeWritesThenTheLoop := by
  intro s c hst hc hbase hadm hlen
  obtain ⟨htx, -⟩ := fifoBlock_aligned hbase
  rw [run_hdr1 hc htx hst hadm (ne_zero_of_lengthInDomain hlen), enterLoop_eq]
  simp only [State.Of.record, State.Of.goto, Option.map_map, List.append_assoc, ofNat_two_mod_four]
  rfl

end Sys2Proof.Machine

/-! ## The store of RD_STORE and the header rows (41_word_mover.md R150, R157, R159)

Each of the three cases of the store leaves the same bytes from `ptr` on and records its own events (`State.Of.stored`);
the advance follows whichever case it was. -/

namespace Sys2Proof.Machine

section Store

variable {s : State} {n : Nat} {es : List Event}

/-- `s` after a store of the low `n` bytes of `stage` at `ptr`, in the events `es` (41_word_mover.md R157). -/
def State.Of.stored (s : State) (n : Nat) (es : List Event) : State :=
  { s with
    trace := s.trace ++ es, portLimit := s.portLimit.map (· - es.length), mem := memPutBytes s.mem s.ptr s.stage n }

@[simp] theorem State.Of.stored_words (s : State) (n : Nat) (es : List Event) : (s.stored n es).words = s.words := rfl

theorem byteWrites_length (a : Addr) (w : Word) (n : Nat) : (byteWrites a w n).length = n := by
  simp [byteWrites]

theorem storeEvents_eq_byteWrites (a : Addr) (w : Word) (n : Nat) : storeEvents a w n = byteWrites a w n := by
  induction n with
  | zero => rfl
  | succ n ih => rw [storeEvents, ih, byteWrites, byteWrites, List.range_succ, List.map_append, List.map_singleton]

theorem memWriteBytes_stored (hadm : s.admits n = true) :
    memWriteBytes s.ptr s.stage s n = .next (s.stored n (byteWrites s.ptr s.stage n)) := by
  rw [memWriteBytes_admitted _ _ _ _ hadm, storeEvents_eq_byteWrites, State.Of.stored, byteWrites_length]

theorem storeWord_partial (hpart : s.words = 1 ∧ s.rem ≠ 0) (hadm : s.admits s.rem.toNat = true) :
    storeWord s = .next (s.stored s.rem.toNat (byteWrites s.ptr s.stage s.rem.toNat)) := by
  rw [storeWord, if_pos (partialFinal_iff.mpr hpart), memWriteBytes_stored hadm]

theorem storeWord_unaligned (hfull : ¬(s.words = 1 ∧ s.rem ≠ 0)) (hptr : s.ptr.toNat % 4 ≠ 0)
    (hadm : s.admits 4 = true) : storeWord s = .next (s.stored 4 (byteWrites s.ptr s.stage 4)) := by
  rw [storeWord, if_neg (partialFinal_iff.not.mpr hfull), if_neg (by simpa [aligned4] using hptr),
    memWriteBytes_stored hadm]

theorem storeWord_aligned (hfull : ¬(s.words = 1 ∧ s.rem ≠ 0)) (hptr : s.ptr.toNat % 4 = 0)
    (hadm : s.admits 1 = true) : storeWord s = .next (s.stored 4 [.mw4 s.ptr s.stage]) := by
  rw [storeWord, if_neg (partialFinal_iff.not.mpr hfull), if_pos (by simpa [aligned4] using hptr)]
  exact memWrite4_eq_next.mpr ⟨hadm, rfl⟩

/-- The advance after a store changes `words`, `ptr`, `polls` and `st` only (41_word_mover.md R159). -/
theorem execPopwRdStore_of_stored (hwords : s.words ≠ 0) (hstore : storeWord s = .next (s.stored n es)) :
    execPopwRdStore s = .next { s.stored n es with
      words := s.words - 1, ptr := s.ptr + 4, polls := 0, st := if s.words = 1 then .doneWait else .rdWait } := by
  rw [execPopwRdStore, hstore, andThen_next]
  refine advanceWord_eq_next.mpr ⟨hwords, ?_⟩
  simp only [State.Of.stored_words, if_true]
  split <;> rfl

/-- The last word of the loop starts `rem` bytes before the end of the payload, if it is a partial one
(41_word_mover.md R150, R162). -/
theorem State.Of.Inv.ptr_add_rem (hinv : s.Inv) (hloop : s.st.inWriteLoop || s.st.inReadLoop) (hlast : s.words = 1)
    (hrem : s.rem ≠ 0) :
    s.ptr + BitVec.ofNat Config.params.addrW s.rem.toNat =
      s.dBuf + BitVec.ofNat Config.params.addrW s.dLen.toNat := by
  obtain ⟨-, -, hmod, hptr⟩ := hinv.loopCursor hloop
  have hr : s.rem.toNat = s.dLen.toNat % 4 := by rw [hmod, BitVec.toNat_ofNat]
  have hr0 : s.rem.toNat ≠ 0 := fun h => hrem (BitVec.eq_of_toNat_eq h)
  have hlen : 4 * payloadWords s.dLen + s.rem.toNat = s.dLen.toNat + 4 := by
    rw [payloadWords, ceil4]
    omega
  have hwords : s.words.toNat = 1 := by rw [hlast]; rfl
  have hsum := congrArg BitVec.toNat hptr
  apply BitVec.eq_of_toNat_eq
  simp only [BitVec.toNat_add, BitVec.toNat_ofNat, Config.params_addrW, hwords] at hsum ⊢
  omega

end Store

/-! ### The obligations of 41_word_mover.md -/

/-- Settles O27: each of the three cases stores its bytes in its events and the advance follows; the bytes and the frame
are those of `memPutBytes`, and the invariant places the end of a partial final word. -/
theorem storeThenAdvance : Obligations.StoreThenAdvance := by
  intro s n es hwords hadm hcase
  have hstore : storeWord s = .next (s.stored n es) := by
    obtain ⟨hpart, hrem, rfl, rfl⟩ | ⟨hfull, hptr, rfl, rfl⟩ | ⟨hfull, hptr, rfl, rfl⟩ := hcase
    · exact storeWord_partial ⟨hpart, hrem⟩ (by rwa [byteWrites_length] at hadm)
    · exact storeWord_unaligned hfull hptr hadm
    · exact storeWord_aligned hfull hptr hadm
  have hn : n ≤ 4 := by
    have := s.rem.isLt
    omega
  refine ⟨_, execPopwRdStore_of_stored hwords hstore, rfl, fun j hj => memGet_memPutBytes_same _ _ _ _ _ hj hn,
    fun a ha => memGet_memPutBytes_other _ _ _ _ _ ha, fun hinv hst hlast hrem => ?_⟩
  obtain ⟨-, -, rfl, -⟩ | ⟨hfull, -⟩ | ⟨hfull, -⟩ := hcase
  · exact hinv.ptr_add_rem (by rw [hst]; decide) hlast hrem
  · exact absurd ⟨hlast, hrem⟩ hfull
  · exact absurd ⟨hlast, hrem⟩ hfull

/-- Settles O19: each of the three rows is a push of its word, and the loop set-up after word 3 is read off field by
field. -/
theorem headerWordsAreEmitted : Obligations.HeaderWordsAreEmitted := by
  intro s c hc hbase hadm
  obtain ⟨htx, -⟩ := fifoBlock_aligned hbase
  refine ⟨fun seq ctlrId => pushVisit_next.mpr ⟨c, hc, htx, hadm, rfl⟩,
    fun size => pushVisit_next.mpr ⟨c, hc, htx, hadm, rfl⟩,
    fun read addr7 => pushVisit_next.mpr ⟨c, hc, htx, hadm, ?_⟩⟩
  rw [enterLoop_eq, ofNat_two_mod_four]
  rfl

end Sys2Proof.Machine

/-! ## The polls (42_poller.md R170 to R174, R177)

A visit at a wait point is one register read and then what its sample leads to; a sample that does not end its poll is
the same for the three (`pollMiss_after_sample`). -/

namespace Sys2Proof.Machine

section Poll

variable {s t r : State} {c : Ctlr} {v : Word}

/-! ### The tests of a sample -/

theorem txReady_iff : txReady v = true ↔
    (v.extractLsb' Config.params.fsTxEmptyLsb Config.params.fsTxEmptyW).toNat = Config.params.fifoDepth :=
  decide_eq_true_iff

theorem rxReady_iff :
    rxReady v = true ↔ v.extractLsb' Config.params.fsRxFullLsb Config.params.fsRxFullW ≠ 0 :=
  decide_eq_true_iff.trans (BitVec.toNat_inj (y := 0)).not

theorem neg32_eq_neg (v : Word) : neg32 v = -v := by
  apply BitVec.eq_of_toNat_eq
  rw [neg32, BitVec.toNat_neg, BitVec.toNat_ofNat]

/-! ### What a sample leads to -/

/-- A register read visit that is completed hands the answer and the state after the read on. -/
theorem readVisit_admitted {f : Ctlr → Addr} {g : Word × State → Result State} (hc : s.ct[s.dC.toNat]? = some c)
    (ha : aligned4 (f c) = true) (hadm : s.admits 1 = true) :
    (withCtlr s fun c => andThen (regRead (f c) s) g) = g (s.answer, (s.record (.rr (f c) s.answer)).consume) := by
  rw [withCtlr_of hc, regRead_admitted ha hadm, andThen_next]

/-- The last word of a loop is done: the completion poll starts (41_word_mover.md R159). -/
theorem advanceWord_last {read : Bool} (h : s.words = 1) :
    advanceWord read s = .next { s with words := 0, ptr := s.ptr + 4, polls := 0, st := .doneWait } :=
  advanceWord_eq_next.mpr ⟨by rw [h]; decide, by rw [if_pos h, h]; rfl⟩

/-- A word of a WRITE is done and another is left: it is fetched (41_word_mover.md R159). -/
theorem advanceWord_write_more (h : 1 < s.words.toNat) :
    advanceWord false s = .next { s with words := s.words - 1, ptr := s.ptr + 4, st := .wrFetch } := by
  have h0 : s.words ≠ 0 := fun h0 => by simp [h0] at h
  have h1 : s.words ≠ 1 := fun h1 => by simp [h1] at h
  exact advanceWord_eq_next.mpr ⟨h0, by rw [if_neg h1]; rfl⟩

/-- A sample that does not end its poll, in the state `r` its read left: one delay, and it is counted; inside the budget
the poll goes on, and the sample that exhausts it raises Timeout (42_poller.md R170). -/
theorem pollMiss_after_sample {again : SeqState} (hpolls : r.polls = s.polls)
    (hlimit : r.portLimit = s.portLimit.map (· - 1)) (hadm : s.admits 2 = true) :
    (s.polls.toNat + 1 < Config.params.nPoll → pollMiss again r = .next { r with
      polls := s.polls + 1, st := again
      trace := r.trace ++ [.dly Config.params.pollUs], portLimit := s.portLimit.map (· - 2) }) ∧
    (s.polls.toNat + 1 = Config.params.nPoll → pollMiss again r = .next { r with
      polls := s.polls + 1, errKind := .timeout, errDetail := 0xFFFFFFFF, st := .recReset
      trace := r.trace ++ [.dly Config.params.pollUs], portLimit := s.portLimit.map (· - 2) }) := by
  have hadm' : r.admits 1 = true := by
    have := admits_record s (.dly Config.params.pollUs) 1 hadm
    simpa only [State.Of.admits, State.Of.record_portLimit, hlimit] using this
  have hlimit' : s.portLimit.map (· - 2) = r.portLimit.map (· - 1) := by
    rw [hlimit, Option.map_map]
    rfl
  rw [hlimit', ← hpolls]
  refine ⟨fun hmore => pollMiss_eq_next.mpr ⟨hadm', ?_⟩, fun hlast => pollMiss_eq_next.mpr ⟨hadm', ?_⟩⟩
  · rw [countSample_again (s := r.record _) hmore]
    rfl
  · rw [countSample_expired (s := r.record _) hlast]
    simp only [raiseError, timeoutDetail, State.Of.setErr, State.Of.goto, State.Of.setPolls, State.Of.record]

/-! ### The three samples -/

/-- What WAITTX makes of a completed read of FIFO_STATUS, `r` being the state the read left (42_poller.md R171). -/
theorem exec_waittxWrWait (hc : s.ct[s.dC.toNat]? = some c) (ha : aligned4 (fifoStatusAddr c) = true)
    (hr : r = (s.record (.rr (fifoStatusAddr c) s.answer)).consume) (hadm : s.admits 1 = true) :
    exec .waittxWrWait s = if txReady s.answer then advanceWord false r else pollMiss .wrWait r := by
  rw [hr]
  exact readVisit_admitted hc ha hadm

/-- What WAITRX makes of a completed read of FIFO_STATUS, `r` being the state the read left (42_poller.md R172). -/
theorem exec_waitrxRdWait (hc : s.ct[s.dC.toNat]? = some c) (ha : aligned4 (fifoStatusAddr c) = true)
    (hr : r = (s.record (.rr (fifoStatusAddr c) s.answer)).consume) (hadm : s.admits 1 = true) :
    exec .waitrxRdWait s = if rxReady s.answer then .next (r.goto .rdPop) else pollMiss .rdWait r := by
  rw [hr]
  exact readVisit_admitted hc ha hadm

/-- WAITDONE judges the answer of a completed read of INT_STATUS, `r` being the state with the answer in `snap`
(42_poller.md R173). -/
theorem exec_waitdoneDoneWait (hc : s.ct[s.dC.toNat]? = some c) (ha : aligned4 (intStatusAddr c) = true)
    (hr : r = (s.record (.rr (intStatusAddr c) s.answer)).consume.setSnap s.answer) (hadm : s.admits 1 = true) :
    exec .waitdoneDoneWait s = judgeSnapshot s.answer r := by
  rw [hr]
  exact readVisit_admitted hc ha hadm

theorem judgeSnapshot_noAck (hno : noAck v = true) :
    judgeSnapshot v s = .next (raiseError .noAcknowledge (-v) s) := by
  rw [judgeSnapshot, if_pos hno, neg32_eq_neg]

theorem judgeSnapshot_arbLost (hno : noAck v = false) (harb : arbLost v = true) :
    judgeSnapshot v s = .next (raiseError .arbitrationLost (-v) s) := by
  rw [judgeSnapshot, if_neg (by simp [hno]), if_pos harb, neg32_eq_neg]

theorem judgeSnapshot_xferDone (hno : noAck v = false) (harb : arbLost v = false) (hdone : xferDone v = true) :
    judgeSnapshot v s = .next ((s.setErr .ok 0).goto .respond) := by
  rw [judgeSnapshot, if_neg (by simp [hno]), if_neg (by simp [harb]), if_pos hdone]

theorem judgeSnapshot_undecided (hno : noAck v = false) (harb : arbLost v = false) (hdone : xferDone v = false) :
    judgeSnapshot v s = pollMiss .doneWait s := by
  rw [judgeSnapshot, if_neg (by simp [hno]), if_neg (by simp [harb]), if_neg (by simp [hdone])]

/-! ### Polls only read -/

theorem advanceWord_mem {read : Bool} (h : advanceWord read s = .next t) : t.mem = s.mem := by
  obtain ⟨-, rfl⟩ := advanceWord_eq_next.mp h
  split
  · rfl
  · split <;> rfl

theorem pollMiss_mem {again : SeqState} (h : pollMiss again s = .next t) : t.mem = s.mem := by
  obtain ⟨-, rfl⟩ | ⟨-, rfl⟩ := pollMiss_next h
  · rfl
  · rw [raiseError, State.Of.goto_mem, State.Of.setErr_mem, State.Of.setPolls_mem, State.Of.record_mem]

theorem judgeSnapshot_mem (h : judgeSnapshot v s = .next t) : t.mem = s.mem := by
  obtain ⟨-, rfl⟩ | ⟨-, -, rfl⟩ | ⟨-, -, -, rfl⟩ | ⟨-, -, -, hmiss⟩ := judgeSnapshot_next h
  · rfl
  · rfl
  · rfl
  · exact pollMiss_mem hmiss

theorem isPoll_iff {q : SeqState} : q.isPoll = true ↔ q = .wrWait ∨ q = .rdWait ∨ q = .doneWait := by
  simp [SeqState.isPoll, or_assoc]

/-- No visit at a wait point writes the buffer space (42_poller.md R177). -/
theorem step_mem_of_isPoll (hpoll : s.st.isPoll = true) (h : step s = .next t) : t.mem = s.mem := by
  obtain hst | hst | hst := isPoll_iff.mp hpoll
  · obtain ⟨c, -, -, -, hsample⟩ := (step_wrWait hst).mp h
    split at hsample
    · simpa using advanceWord_mem hsample
    · simpa using pollMiss_mem hsample
  · obtain ⟨c, -, -, -, hsample⟩ := (step_rdWait hst).mp h
    split at hsample
    · cases hsample
      rfl
    · simpa using pollMiss_mem hsample
  · obtain ⟨c, -, -, -, hjudge⟩ := (step_doneWait hst).mp h
    simpa using judgeSnapshot_mem hjudge

/-- The events of a visit at a wait point are register reads and delays (42_poller.md R170, R177). -/
theorem State.Of.Performs.only_reads_of_isPoll {e : Event} (hpoll : s.st.isPoll = true) (h : s.Performs e) :
    e.isRegWrite = false ∧ e.isBufferRead = false ∧ e.isBufferWrite = false := by
  cases h with
  | readIntStatus | readFifoStatus | delay | popRx | readSlCnfg | resetPeriph | respond => exact ⟨rfl, rfl, rfl⟩
  | pushTx hst => obtain h | h | h := isPoll_iff.mp hpoll <;> simp [h] at hst
  | clearIntStatus hst | fetch hst | store hst | writeCnfg hst | writeSlCnfg hst =>
    rw [hst] at hpoll
    exact absurd hpoll (by decide)

end Poll

/-! ### The obligations of 42_poller.md -/

/-- Settles O30: the read of FIFO_STATUS, and then the advance for a ready sample, the count for another. -/
theorem waitTxSample : Obligations.WaitTxSample := by
  intro s r c hc hbase hr
  obtain ⟨-, -, hfifo, -⟩ := fifoBlock_aligned hbase
  refine ⟨fun hready hadm => ?_, fun hbusy hadm => ?_⟩
  · rw [exec_waittxWrWait hc hfifo hr hadm, if_pos (txReady_iff.mpr hready)]
    have hwords : r.words = s.words := by rw [hr]
    have hptr : r.ptr = s.ptr := by rw [hr]
    rw [← hwords, ← hptr]
    exact ⟨advanceWord_write_more, advanceWord_last⟩
  · rw [exec_waittxWrWait hc hfifo hr (admits_mono hadm (by decide)), if_neg (txReady_iff.not.mpr hbusy)]
    exact pollMiss_after_sample (by rw [hr]) (by rw [hr]) hadm

/-- Settles O31: the read of FIFO_STATUS, and then RD_POP for a ready sample, the count for another. -/
theorem waitRxSample : Obligations.WaitRxSample := by
  intro s r c hc hbase hr
  obtain ⟨-, -, hfifo, -⟩ := fifoBlock_aligned hbase
  refine ⟨fun hready hadm => ?_, fun hempty hadm => ?_⟩
  · rw [exec_waitrxRdWait hc hfifo hr hadm, if_pos (rxReady_iff.mpr hready)]
    rfl
  · rw [exec_waitrxRdWait hc hfifo hr (admits_mono hadm (by decide)), if_neg (rxReady_iff.not_left.mpr hempty)]
    exact pollMiss_after_sample (by rw [hr]) (by rw [hr]) hadm

/-- Settles O32: the read of INT_STATUS, and then the first of the four judgements that applies to the snapshot. -/
theorem waitDoneSample : Obligations.WaitDoneSample := by
  rintro s r c _ hc hbase rfl hr
  obtain ⟨-, -, -, hint⟩ := fifoBlock_aligned hbase
  refine ⟨fun hadm => ?_, fun hadm hno harb hdone => ?_⟩
  · rw [exec_waitdoneDoneWait hc hint hr hadm]
    exact ⟨judgeSnapshot_noAck, judgeSnapshot_arbLost, judgeSnapshot_xferDone⟩
  · rw [exec_waitdoneDoneWait hc hint hr (admits_mono hadm (by decide)), judgeSnapshot_undecided hno harb hdone]
    exact pollMiss_after_sample (by rw [hr]) (by rw [hr]) hadm

/-- Settles O50: no event a visit at a wait point performs writes a register or touches the buffer. -/
theorem pollsOnlyRead : Obligations.PollsOnlyRead := by
  intro s t hpoll hstep
  obtain ⟨es, htrace, hes⟩ := step_events hstep
  exact ⟨es, htrace, step_mem_of_isPoll hpoll hstep, fun e he => (hes e he).only_reads_of_isPoll hpoll⟩

end Sys2Proof.Machine

/-! ## Recovery (43_recovery.md R190 to R196)

The four visits of RECOVER, and the run they make with the response that follows. A standard controller and a DVC variant
differ in the visits before the end of recovery; from there to the response they do the same (`run_finishRecovery`). -/

namespace Sys2Proof.Machine

section Recovery

variable {s : State} {c : Ctlr}

/-! ### The entry -/

theorem cnfgAddr_standard (h : c.isDvc = false) : cnfgAddr c = c.regsBase + Config.params.offCnfg := by
  rw [cnfgAddr, h]
  rfl

theorem cnfgAddr_dvc (h : c.isDvc = true) : cnfgAddr c = c.regsBase + Config.params.offCnfgDvc := by
  rw [cnfgAddr, h]
  rfl

/-- The entry an INIT recovers reads back initialised (43_recovery.md R196). -/
theorem getElem?_setInited {T : Vector Ctlr Config.params.nCtlr} {k : Nat} (hc : T[k]? = some c) :
    (T.setIfInBounds k { c with inited := true })[k]? = some { c with inited := true } := by
  obtain ⟨hk, -⟩ := Vector.getElem?_eq_some_iff.mp hc
  rw [Vector.getElem?_setIfInBounds, if_pos rfl, if_pos hk]

/-! ### The visits -/

section Visit

variable (hadm : s.admits 1 = true) (hc : s.ct[s.dC.toNat]? = some c)
include hadm hc

theorem exec_recoverRecReset :
    exec .recoverRecReset s = .next ((s.record (.prst c.periphId)).goto .recCnfg) := by
  rw [exec, execRecoverRecReset, withCtlr_of hc, periphReset_eq_next.mpr ⟨hadm, rfl⟩, andThen_next]

variable (hbase : c.regsBase.toNat % 4 = 0)
include hbase

theorem exec_recoverRecCnfg :
    exec .recoverRecCnfg s = .next
      (if c.isDvc then finishRecovery c (s.record (.rw (cnfgAddr c) Config.params.cnfgPacketValue))
       else (s.record (.rw (cnfgAddr c) Config.params.cnfgPacketValue)).goto .recSlRd) :=
  (writeVisit_next (g := fun c u => if c.isDvc then finishRecovery c u else u.goto .recSlRd)).mpr
    ⟨c, hc, (controlBlock_aligned hbase).1, hadm, rfl⟩

theorem exec_recoverRecCnfg_standard (hdvc : c.isDvc = false) :
    exec .recoverRecCnfg s = .next
      ((s.record (.rw (c.regsBase + Config.params.offCnfg) Config.params.cnfgPacketValue)).goto .recSlRd) := by
  rw [exec_recoverRecCnfg hadm hc hbase, if_neg (by simp [hdvc]), cnfgAddr_standard hdvc]

theorem exec_recoverRecCnfg_dvc (hdvc : c.isDvc = true) :
    exec .recoverRecCnfg s = .next
      (finishRecovery c (s.record (.rw (c.regsBase + Config.params.offCnfgDvc) Config.params.cnfgPacketValue))) := by
  rw [exec_recoverRecCnfg hadm hc hbase, if_pos hdvc, cnfgAddr_dvc hdvc]

theorem exec_recoverRecSlRd :
    exec .recoverRecSlRd s = .next
      (((s.record (.rr (slCnfgAddr c) s.answer)).consume.setStage s.answer).goto .recSlWr) :=
  readVisit_admitted hc (controlBlock_aligned hbase).2 hadm

theorem exec_recoverRecSlWr :
    exec .recoverRecSlWr s = .next
      (finishRecovery c (s.record (.rw (slCnfgAddr c) (s.stage ||| Config.params.slNewslMask)))) :=
  (writeVisit_next (g := finishRecovery)).mpr ⟨c, hc, (controlBlock_aligned hbase).2, hadm, rfl⟩

end Visit

/-! ### The runs -/

/-- Recovery of a standard controller before its end: the four events are performed, SL_CNFG is in `stage`
(43_recovery.md R190, R193). -/
def State.Of.recoveredStandard (s : State) (c : Ctlr) : State := { s with
  st := .recSlWr, stage := s.answer
  trace := s.trace ++ [.prst c.periphId, .rw (c.regsBase + Config.params.offCnfg) Config.params.cnfgPacketValue,
    .rr (slCnfgAddr c) s.answer, .rw (slCnfgAddr c) (s.answer ||| Config.params.slNewslMask)]
  portLimit := s.portLimit.map (· - 4), regAnswers := s.regAnswers.tail, draws := s.draws + 1 }

/-- Recovery of a DVC variant before its end: the two events are performed (43_recovery.md R190, R192). -/
def State.Of.recoveredDvc (s : State) (c : Ctlr) : State := { s with
  st := .recCnfg
  trace := s.trace ++ [.prst c.periphId, .rw (c.regsBase + Config.params.offCnfgDvc) Config.params.cnfgPacketValue]
  portLimit := s.portLimit.map (· - 2) }

/-- Of `n + k` completed events, `n` are left when `k` are used up. -/
theorem admits_after {t : State} {n k : Nat} (hlimit : t.portLimit = s.portLimit.map (· - k))
    (h : s.admits (n + k) = true) : t.admits n = true := by
  cases hs : s.portLimit with
  | none => simp [State.Of.admits, hlimit, hs]
  | some m =>
    simp only [State.Of.admits, hlimit, hs, Option.map_some, decide_eq_true_eq] at h ⊢
    omega

/-- A visit that reads a register into `stage` leaves `n` of `n + 1` completed events to the state it enters. -/
theorem admits_read_goto {n : Nat} (h : s.admits (n + 1) = true) (a : Addr) (t : SeqState) :
    (((s.record (.rr a s.answer)).consume.setStage s.answer).goto t).admits n = true := admits_after (k := 1) rfl h

/-- A run goes on from where the visit `st` selects goes on. -/
theorem run_succ_of_exec {t : State} {i : Instr} (h : exec i s = .next t) (hi : fetch s = i) (k : Nat) :
    Host.Core.run core (k + 1) s = Host.Core.run core k t :=
  run_succ_of_step (by rw [step, hi, h]) k

/-- The end of recovery and the response after it: the response carries the latch, which holds, and the table is
changed for INIT only (43_recovery.md R194, R196). -/
theorem run_finishRecovery (hadm : s.admits 1 = true) (hc : s.ct[s.dC.toNat]? = some c) :
    ∃ t, Host.Core.run core 1 (finishRecovery c s) = .next t ∧ t.st = .idle ∧
      t.trace = s.trace ++ [.rsp s.errKind s.errDetail (s.dProbe && decide (s.errKind = .ok))] ∧
      t.errKind = s.errKind ∧ t.errDetail = s.errDetail ∧ t.mem = s.mem ∧ t.stage = s.stage ∧
      (s.dInit = true → t.ct[s.dC.toNat]? = some { c with inited := true }) ∧ (s.dInit = false → t.ct = s.ct) := by
  have hst : (finishRecovery c s).st = .respond := by rw [finishRecovery_eq]
  have hadm' : (finishRecovery c s).admits 1 = true := by rw [finishRecovery_eq]; exact hadm
  refine ⟨_, run_succ_of_step ((step_respond hst).mpr ⟨hadm', rfl⟩) 0, ?_⟩
  rw [finishRecovery_eq]
  refine ⟨rfl, rfl, rfl, rfl, rfl, rfl, fun hinit => ?_, fun hinit => if_neg (by simp [hinit])⟩
  exact (congrArg (·[s.dC.toNat]?) (if_pos hinit)).trans (getElem?_setInited hc)

/-- From REC_RESET on a standard controller, the four visits up to the end of recovery (43_recovery.md R190). -/
theorem run_recover_standard (hadm : s.admits 4 = true) (hc : s.ct[s.dC.toNat]? = some c)
    (hbase : c.regsBase.toNat % 4 = 0) (hst : s.st = .recReset) (hdvc : c.isDvc = false) (k : Nat) :
    Host.Core.run core (k + 4) s = Host.Core.run core k (finishRecovery c (s.recoveredStandard c)) := by
  have hcnfg := admits_record_goto hadm (.prst c.periphId) .recCnfg
  have hslRd := admits_record_goto hcnfg (.rw (c.regsBase + Config.params.offCnfg) Config.params.cnfgPacketValue)
    .recSlRd
  have hslWr := admits_read_goto hslRd (slCnfgAddr c) .recSlWr
  rw [run_succ_of_exec (exec_recoverRecReset (admits_mono hadm (by decide)) hc) (congrArg SeqState.instr hst),
    run_succ_of_exec (exec_recoverRecCnfg_standard (admits_mono hcnfg (by decide)) (by simpa using hc) hbase hdvc) rfl,
    run_succ_of_exec (exec_recoverRecSlRd (admits_mono hslRd (by decide)) (by simpa using hc) hbase) rfl,
    run_succ_of_exec (exec_recoverRecSlWr hslWr (by simpa using hc) hbase) rfl]
  simp only [State.Of.recoveredStandard, State.Of.record, State.Of.goto, State.Of.consume, State.Of.setStage,
    Option.map_map, List.append_assoc]
  rfl

/-- From REC_RESET on a DVC variant, the two visits up to the end of recovery (43_recovery.md R190). -/
theorem run_recover_dvc (hadm : s.admits 2 = true) (hc : s.ct[s.dC.toNat]? = some c)
    (hbase : c.regsBase.toNat % 4 = 0) (hst : s.st = .recReset) (hdvc : c.isDvc = true) (k : Nat) :
    Host.Core.run core (k + 2) s = Host.Core.run core k (finishRecovery c (s.recoveredDvc c)) := by
  have hcnfg := admits_record_goto hadm (.prst c.periphId) .recCnfg
  rw [run_succ_of_exec (exec_recoverRecReset (admits_mono hadm (by decide)) hc) (congrArg SeqState.instr hst),
    run_succ_of_exec (exec_recoverRecCnfg_dvc hcnfg (by simpa using hc) hbase hdvc) rfl]
  simp only [State.Of.recoveredDvc, State.Of.record, State.Of.goto, Option.map_map, List.append_assoc]
  rfl

end Recovery

/-! ### The obligations of 43_recovery.md -/

/-- Settles O36: each visit performs its one event; the two that end recovery end it by `finishRecovery`, read off field
by field. -/
theorem recoveryVisits : Obligations.RecoveryVisits := by
  intro s c hc hbase hadm
  refine ⟨exec_recoverRecReset hadm hc, exec_recoverRecCnfg_standard hadm hc hbase, fun hdvc => ?_, ?_, ?_⟩
  · rw [exec_recoverRecCnfg_dvc hadm hc hbase hdvc, finishRecovery_eq]
    rfl
  · rw [exec_recoverRecSlRd hadm hc hbase]
    rfl
  · rw [exec_recoverRecSlWr hadm hc hbase, finishRecovery_eq]
    rfl

/-- Settles O37: the visits up to the end of recovery leave the latch, the descriptor and the buffer alone, so that the
end of recovery responds with what was latched before REC_RESET. -/
theorem recoveryThenTheOriginalError : Obligations.RecoveryThenTheOriginalError := by
  intro s c hst hc hbase
  refine ⟨fun hdvc hadm => ?_, fun hdvc hadm => ?_⟩
  · obtain ⟨t, hrun, hidle, htrace, hkind, hdetail, hmem, -, htable⟩ :=
      run_finishRecovery (s := s.recoveredStandard c) (admits_after rfl hadm) hc
    rw [run_recover_standard (admits_mono hadm (by decide)) hc hbase hst hdvc]
    exact ⟨t, hrun, hidle, htrace.trans (List.append_assoc ..), hkind, hdetail, hmem, htable⟩
  · obtain ⟨t, hrun, hidle, htrace, hkind, hdetail, hmem, hstage, htable⟩ :=
      run_finishRecovery (s := s.recoveredDvc c) (admits_after rfl hadm) hc
    rw [run_recover_dvc (admits_mono hadm (by decide)) hc hbase hst hdvc]
    exact ⟨t, hrun, hidle, htrace.trans (List.append_assoc ..), hkind, hdetail, hmem, hstage, htable⟩

end Sys2Proof.Machine

/-! ## The tests of CHECK and the delivery of a success (44_transactions.md R201, R207)

CHECK has one equation per outcome, under the tests that come before it. A success is two visits: the sample that ends
WAITDONE latches OK, and RESPOND delivers the latch. -/

namespace Sys2Proof.Machine

section Transaction

variable {s : State} {c : Ctlr}

/-! ### The branches of CHECK -/

theorem exec_seqCheck_outside (hd : Config.params.nCtlr ≤ s.dC.toNat) :
    exec .seqCheck s = .next (refuseCommand .busNotReady s) := by
  rw [exec, execSeqCheck, Vector.getElem?_eq_none hd]

section Entry

variable (hc : s.ct[s.dC.toNat]? = some c)
include hc

theorem exec_seqCheck_init (hinit : s.dInit = true) :
    exec .seqCheck s = .next ((s.setErr .ok 0).goto .recReset) := by
  simp only [exec, execSeqCheck, hc, hinit, if_true]

variable (hinit : s.dInit = false)
include hinit

theorem exec_seqCheck_uninitialised (hready : c.inited = false) :
    exec .seqCheck s = .next (refuseCommand .busNotReady s) := by
  simp only [exec, execSeqCheck, hc, hinit, hready, Bool.not_false, Bool.false_eq_true, if_false, if_true]

variable (hready : c.inited = true)
include hready

theorem exec_seqCheck_tenBit (hten : s.dTen = true) :
    exec .seqCheck s = .next (refuseCommand .unsupportedAddressWidth s) := by
  simp only [exec, execSeqCheck, hc, hinit, hready, hten, Bool.not_true, Bool.false_eq_true, if_false, if_true]

theorem exec_seqCheck_passes (hten : s.dTen = false) : exec .seqCheck s = .next (s.goto .clrRd) := by
  simp only [exec, execSeqCheck, hc, hinit, hready, hten, Bool.not_true, Bool.false_eq_true, if_false]

end Entry

/-! ### The end of a transaction that succeeded -/

/-- A sample with the transfer-complete bit and no error bit ends DONE_WAIT: OK and 0 are latched, the read of INT_STATUS
is the one event, and the response is next (42_poller.md R173, 44_transactions.md R207). -/
theorem step_doneWait_succeeds (hst : s.st = .doneWait) (hc : s.ct[s.dC.toNat]? = some c)
    (ha : aligned4 (intStatusAddr c) = true) (hadm : s.admits 2 = true) (hno : noAck s.answer = false)
    (harb : arbLost s.answer = false) (hdone : xferDone s.answer = true) :
    ∃ u, step s = .next u ∧ u.st = .respond ∧ u.errKind = .ok ∧ u.errDetail = 0 ∧ u.dProbe = s.dProbe ∧
      u.admits 1 = true ∧ u.trace = s.trace ++ [.rr (intStatusAddr c) s.answer] :=
  ⟨_, (step_doneWait hst).mpr ⟨c, hc, ha, admits_mono hadm (by decide), judgeSnapshot_xferDone hno harb hdone⟩,
    rfl, rfl, rfl, by simp, admits_after (k := 1) (by simp) hadm, by simp⟩

/-- A response OK is `present` exactly for a PROBE (44_transactions.md R204, R207). -/
theorem presentBit_ok (probe : Bool) : presentBit probe .ok = probe := Bool.and_true probe

/-- With OK latched, RESPOND delivers it and CORE is idle (44_transactions.md R207). -/
theorem step_respond_ok (hst : s.st = .respond) (hok : s.errKind = .ok) (hadm : s.admits 1 = true) :
    ∃ t, step s = .next t ∧ t.st = .idle ∧ t.trace = s.trace ++ [.rsp .ok s.errDetail s.dProbe] :=
  ⟨_, (step_respond hst).mpr ⟨hadm, rfl⟩, rfl, by simp [hok, presentBit_ok]⟩

end Transaction

/-! ### The obligations of 44_transactions.md -/

/-- Settles O16: an index outside the table ends the tests at the first; inside it, the hypotheses say which test is the
first to succeed. -/
theorem checkTestsInOrder : Obligations.CheckTestsInOrder :=
  fun _ => ⟨exec_seqCheck_outside, fun _ hc =>
    ⟨exec_seqCheck_init hc, exec_seqCheck_uninitialised hc, exec_seqCheck_tenBit hc, exec_seqCheck_passes hc⟩⟩

/-- Settles O40: the sample ends WAITDONE with OK latched, and RESPOND delivers the latch without a recovery between. -/
theorem successIsDelivered : Obligations.SuccessIsDelivered := by
  intro s c hst hc hbase hadm hno harb hdone
  obtain ⟨-, -, -, hint⟩ := fifoBlock_aligned hbase
  obtain ⟨u, hdoneWait, hust, hkind, hdetail, hprobe, huadm, hutrace⟩ :=
    step_doneWait_succeeds hst hc hint hadm hno harb hdone
  obtain ⟨t, hrespond, hidle, htrace⟩ := step_respond_ok hust hkind huadm
  refine ⟨u, t, hdoneWait, hust, hkind, hdetail, hrespond, hidle, ?_⟩
  rw [htrace, hutrace, hdetail, hprobe, List.append_assoc]
  rfl

end Sys2Proof.Machine

/-! ## The answer of a controller that is not ready (70_reset_and_hazards.md R261)

Acceptance only latches the descriptor, CHECK refuses it without a port event, and RESPOND delivers the refusal. -/

namespace Sys2Proof.Machine

/-- No entry at index `k` is initialised: it is not in the table, or its `inited` is clear. -/
def State.Of.NotReadyAt (s : State) (k : Nat) : Prop := ∀ c, s.ct[k]? = some c → c.inited = false

theorem reset_notReadyAt (k : Nat) : State.reset.NotReadyAt k := by
  intro c hc
  obtain ⟨hk, -⟩ := Vector.getElem?_eq_some_iff.mp hc
  rw [resetLeavesAZeroTableAndIdle.1 k hk] at hc
  cases hc
  rfl

section NotReady

variable {s : State}

/-- Each of WRITE, READ and PROBE, accepted, latches a descriptor of the index it names that is not INIT's
(44_transactions.md R200). -/
theorem exec_transfer_accepted {ctlr : BitVec 4} {ten : Bool} {len : BitVec 13} {addr7 : BitVec 7} {buf : Addr}
    {i : Instr} (hst : s.st = .idle) (hlen : lengthInDomain len = true)
    (hi : i ∈ [Instr.write ctlr ten len addr7 buf, .read ctlr ten len addr7 buf, .probe ctlr ten addr7 buf]) :
    ∃ d : Descriptor, d.c = ctlr ∧ d.init = false ∧ exec i s = .next ((s.latch d).goto .check) := by
  simp only [List.mem_cons, List.not_mem_nil, or_false] at hi
  obtain rfl | rfl | rfl := hi
  · exact ⟨_, rfl, rfl, exec_write_accepted hst ctlr ten addr7 buf hlen⟩
  · exact ⟨_, rfl, rfl, exec_read_accepted hst ctlr ten addr7 buf hlen⟩
  · exact ⟨_, rfl, rfl, exec_probe_accepted hst ctlr ten addr7 buf⟩

/-- CHECK refuses an index outside the table at its first test, an entry not initialised at its third
(44_transactions.md R201). -/
theorem exec_seqCheck_notReady (hinit : s.dInit = false) (hready : s.NotReadyAt s.dC.toNat) :
    exec .seqCheck s = .next (refuseCommand .busNotReady s) := by
  cases hc : s.ct[s.dC.toNat]? with
  | none => exact exec_seqCheck_outside (Vector.getElem?_eq_none_iff.mp hc)
  | some c => exact exec_seqCheck_uninitialised hc hinit (hready c hc)

/-- From RESPOND with BusNotReady latched, the response is never `present`; table and buffer stay as they are
(44_transactions.md R207). -/
theorem run_respond_busNotReady (hst : s.st = .respond) (hkind : s.errKind = .busNotReady) (hdetail : s.errDetail = 0)
    (hadm : s.admits 1 = true) :
    ∃ u, Host.Core.run core 1 s = .next u ∧ u.st = .idle ∧ u.trace = s.trace ++ [.rsp .busNotReady 0 false] ∧
      u.ct = s.ct ∧ u.mem = s.mem := by
  have hpresent : presentBit s.dProbe .busNotReady = false := Bool.and_false s.dProbe
  refine ⟨_, run_succ_of_step ((step_respond hst).mpr ⟨hadm, rfl⟩) 0, rfl, ?_, rfl, rfl⟩
  simp [hkind, hdetail, hpresent]

end NotReady

/-! ### The obligation of 70_reset_and_hazards.md -/

/-- Settles O41: acceptance keeps the table, so that CHECK finds the named index not ready and latches BusNotReady, and
RESPOND performs the one event. -/
theorem uninitialisedControllersAnswerBusNotReady : Obligations.UninitialisedControllersAnswerBusNotReady := by
  refine ⟨reset_notReadyAt, fun s ctlr ten len addr7 buf i hst hadm hlen hready hi => ?_⟩
  obtain ⟨d, rfl, hinit, haccept⟩ := exec_transfer_accepted hst hlen hi
  have hcheck := exec_seqCheck_notReady (s := (s.latch d).goto .check) hinit hready
  obtain ⟨u, hrun, hu⟩ :=
    run_respond_busNotReady (s := refuseCommand .busNotReady ((s.latch d).goto .check)) rfl rfl rfl hadm
  exact ⟨_, u, haccept, (run_succ_of_exec hcheck rfl 1).trans hrun, hu⟩

end Sys2Proof.Machine

/-! ## Encodings (30_encoding.md sections 1 to 5)

Each word of a format is known bit by bit; a row's mask and match then fix every bit outside the fields, so that words
that decode are the ones the encoder writes. -/

namespace Sys2Proof

/-! ### Bits of a field -/

theorem getLsbD_putField (l w i : Nat) (v : Word) :
    (putField l w v).getLsbD i = (decide (l ≤ i ∧ i < 32 ∧ i < l + w) && v.getLsbD (i - l)) := by
  simp only [putField, BitVec.getLsbD_shiftLeft, BitVec.getLsbD_setWidth]
  by_cases h : l ≤ i ∧ i < 32 ∧ i < l + w
  · obtain ⟨h1, h2, h3⟩ := h
    simp [h1, h2, h3, show i - l < 32 by omega, show i - l < w by omega]
  · rw [decide_eq_false h, Bool.false_and]
    grind

theorem getLsbD_fieldMask (l w i : Nat) :
    (fieldMask l w).getLsbD i = decide (l ≤ i ∧ i < 32 ∧ i < l + w) := by
  simp only [fieldMask, BitVec.getLsbD_shiftLeft, BitVec.getLsbD_ofNat, Nat.testBit_two_pow_sub_one]
  grind

/-- The field of a word, put back where it stood, is the word inside the field's mask. -/
theorem putField_getField (l w : Nat) (v : Word) :
    putField l w ((getField l w v).setWidth 32) = v &&& fieldMask l w := by
  apply BitVec.eq_of_getLsbD_eq
  intro i hi
  simp only [getLsbD_putField, getField, BitVec.getLsbD_setWidth, BitVec.getLsbD_extractLsb', BitVec.getLsbD_and,
    getLsbD_fieldMask]
  grind


/-! ### The header words -/

theorem hdr1Word_getLsbD (seq : BitVec 8) (ctlrId : BitVec 4) (i : Nat) :
    (hdr1Word seq ctlrId).getLsbD i =
      if i < 4 then false else if i < 8 then (1#4).getLsbD (i - 4) else if i < 12 then false
      else if i < 16 then ctlrId.getLsbD (i - 12) else seq.getLsbD (i - 16) := by
  have hprot : (1 : Word).getLsbD (i - 4) = (1#4).getLsbD (i - 4) := by
    simp [BitVec.getLsbD_one]
  simp only [hdr1Word, BitVec.getLsbD_or, getLsbD_putField, BitVec.getLsbD_setWidth]
  grind

theorem hdr2Word_getLsbD (n : BitVec 12) (i : Nat) : (hdr2Word n).getLsbD i = n.getLsbD i := by
  simp only [hdr2Word, getLsbD_putField, BitVec.getLsbD_setWidth]
  grind

theorem hdr3Word_getLsbD (a : BitVec 8) (r : Bool) (i : Nat) :
    (hdr3Word a r).getLsbD i = if i = 19 then r else a.getLsbD i := by
  simp only [hdr3Word, BitVec.getLsbD_or, getLsbD_putField, BitVec.getLsbD_setWidth, BitVec.getLsbD_ofBool]
  grind

theorem addr8Of_getLsbD (a : BitVec 7) (r : Bool) (i : Nat) :
    (addr8Of a r).getLsbD i = if i = 0 then r else a.getLsbD (i - 1) := by
  simp only [addr8Of, BitVec.getLsbD_or, BitVec.getLsbD_shiftLeft, BitVec.getLsbD_setWidth, BitVec.getLsbD_ofBool]
  grind

/-- A word matches a row exactly when it has the row's bits under the mask. -/
theorem matchesRow_iff {mask value w : Word} :
    matchesRow mask value w = true ↔ ∀ i, (w.getLsbD i && mask.getLsbD i) = value.getLsbD i := by
  rw [matchesRow, decide_eq_true_iff]
  constructor
  · rintro rfl i
    rw [BitVec.getLsbD_and]
  · intro h
    apply BitVec.eq_of_getLsbD_eq
    intro i _
    rw [BitVec.getLsbD_and, h]

/-- The fields of header word 1 (30_encoding.md R107). -/
theorem hdr1Word_fields (seq : BitVec 8) (ctlrId : BitVec 4) :
    (hdr1Word seq ctlrId).extractLsb' 24 8 = 0 ∧ (hdr1Word seq ctlrId).extractLsb' 16 8 = seq ∧
    (hdr1Word seq ctlrId).extractLsb' 12 4 = ctlrId ∧ (hdr1Word seq ctlrId).extractLsb' 8 4 = 0 ∧
    (hdr1Word seq ctlrId).extractLsb' 4 4 = 1 ∧ (hdr1Word seq ctlrId).extractLsb' 0 4 = 0 := by
  refine ⟨?_, ?_, ?_, ?_, ?_, ?_⟩
  all_goals
    apply BitVec.eq_of_getLsbD_eq
    intro i hi
    simp only [BitVec.getLsbD_extractLsb', hdr1Word_getLsbD, BitVec.ofNat_eq_ofNat, BitVec.getLsbD_zero]
    grind

/-- The field of header word 2 (30_encoding.md R108). -/
theorem hdr2Word_fields (n : BitVec 12) :
    (hdr2Word n).extractLsb' 12 20 = 0 ∧ (hdr2Word n).extractLsb' 0 12 = n := by
  constructor
  all_goals
    apply BitVec.eq_of_getLsbD_eq
    intro i hi
    simp only [BitVec.getLsbD_extractLsb', hdr2Word_getLsbD, BitVec.ofNat_eq_ofNat, BitVec.getLsbD_zero]
    grind

/-- The fields of header word 3, the direction in its two places (30_encoding.md R109). -/
theorem hdr3Word_fields (a : BitVec 7) (r : Bool) :
    (hdr3Word (addr8Of a r) r).extractLsb' 20 12 = 0 ∧ (hdr3Word (addr8Of a r) r).getLsbD 19 = r ∧
    (hdr3Word (addr8Of a r) r).extractLsb' 8 11 = 0 ∧ (hdr3Word (addr8Of a r) r).extractLsb' 1 7 = a ∧
    (hdr3Word (addr8Of a r) r).getLsbD 0 = r := by
  refine ⟨?_, hdr3Word_getLsbD _ _ _, ?_, ?_, (hdr3Word_getLsbD _ _ _).trans (addr8Of_getLsbD _ _ _)⟩
  all_goals
    apply BitVec.eq_of_getLsbD_eq
    intro i hi
    simp only [BitVec.getLsbD_extractLsb', hdr3Word_getLsbD, addr8Of_getLsbD, BitVec.ofNat_eq_ofNat,
      BitVec.getLsbD_zero]
    grind

theorem decodeHdr1_hdr1Word (seq : BitVec 8) (ctlrId : BitVec 4) :
    decodeHdr1 (hdr1Word seq ctlrId) = .ok (.hdr1 seq ctlrId) := by
  have hmatch : matchesRow (~~~(fieldMask 16 8 ||| fieldMask 12 4)) (putField 4 4 1) (hdr1Word seq ctlrId) = true := by
    rw [matchesRow_iff]
    intro i
    simp only [BitVec.getLsbD_or, BitVec.getLsbD_not, getLsbD_fieldMask, getLsbD_putField, hdr1Word_getLsbD,
      BitVec.getLsbD_one]
    grind
  obtain ⟨-, hseq, hid, -⟩ := hdr1Word_fields seq ctlrId
  have hrow : decodeHdr1 (hdr1Word seq ctlrId) = .ok (.hdr1
      ((getField 16 8 (hdr1Word seq ctlrId)).setWidth 8) ((getField 12 4 (hdr1Word seq ctlrId)).setWidth 4)) :=
    if_pos hmatch
  rw [hrow, BitVec.setWidth_eq, BitVec.setWidth_eq, getField, getField, hseq, hid]

theorem decodeHdr1_eq_ok {w : Word} {i : Instr} (h : decodeHdr1 w = .ok i) :
    i.format = .hdr1 ∧ encode i = [w] := by
  unfold decodeHdr1 at h
  split at h
  · rename_i hmatch
    cases h
    rw [matchesRow_iff] at hmatch
    refine ⟨rfl, congrArg (fun w => [w]) (BitVec.eq_of_getLsbD_eq fun i hi => ?_)⟩
    have hbit := hmatch i
    simp only [BitVec.getLsbD_or, BitVec.getLsbD_not, getLsbD_fieldMask, getLsbD_putField,
      BitVec.getLsbD_one, hdr1Word_getLsbD, getField, BitVec.getLsbD_setWidth, BitVec.getLsbD_extractLsb'] at hbit ⊢
    grind
  · cases h

theorem decodeHdr2_hdr2Word (n : BitVec 12) : decodeHdr2 (hdr2Word n) = .ok (.hdr2 n) := by
  have hmatch : matchesRow (~~~fieldMask 0 12) 0 (hdr2Word n) = true := by
    rw [matchesRow_iff]
    intro i
    simp only [BitVec.getLsbD_not, getLsbD_fieldMask, BitVec.ofNat_eq_ofNat, BitVec.getLsbD_zero, hdr2Word_getLsbD]
    grind
  have hrow : decodeHdr2 (hdr2Word n) = .ok (.hdr2 ((getField 0 12 (hdr2Word n)).setWidth 12)) := if_pos hmatch
  rw [hrow, BitVec.setWidth_eq, getField, (hdr2Word_fields n).2]

theorem decodeHdr2_eq_ok {w : Word} {i : Instr} (h : decodeHdr2 w = .ok i) : i.format = .hdr2 ∧ encode i = [w] := by
  unfold decodeHdr2 at h
  split at h
  · rename_i hmatch
    cases h
    rw [matchesRow_iff] at hmatch
    refine ⟨rfl, congrArg (fun w => [w]) (BitVec.eq_of_getLsbD_eq fun i hi => ?_)⟩
    have hbit := hmatch i
    simp only [BitVec.getLsbD_not, getLsbD_fieldMask, BitVec.ofNat_eq_ofNat, BitVec.getLsbD_zero, hdr2Word_getLsbD,
      getField, BitVec.getLsbD_setWidth, BitVec.getLsbD_extractLsb'] at hbit ⊢
    grind
  · cases h

/-- A value below `2 ^ n` has no bit from `n` on. -/
theorem toNat_lt_two_pow_iff {w n : Nat} {x : BitVec w} : x.toNat < 2 ^ n ↔ ∀ i, n ≤ i → x.getLsbD i = false :=
  ⟨fun h _ hi => Nat.testBit_lt_two_pow (h.trans_le (Nat.pow_le_pow_right (by decide) hi)),
    Nat.lt_pow_two_of_testBit _⟩

theorem decodeHdr3_hdr3Word (read : Bool) (addr7 : BitVec 7) :
    decodeHdr3 (hdr3Word (addr8Of addr7 read) read) = .ok (.hdr3 read addr7) := by
  have hmatch : matchesRow (~~~(fieldMask 0 10 ||| fieldMask 19 1)) 0 (hdr3Word (addr8Of addr7 read) read) = true := by
    rw [matchesRow_iff]
    intro i
    simp only [BitVec.getLsbD_not, BitVec.getLsbD_or, getLsbD_fieldMask, BitVec.ofNat_eq_ofNat, BitVec.getLsbD_zero,
      hdr3Word_getLsbD, addr8Of_getLsbD]
    grind
  have hsmall : (getField 0 10 (hdr3Word (addr8Of addr7 read) read)).toNat < 2 ^ 8 := by
    rw [toNat_lt_two_pow_iff]
    intro i hi
    simp only [getField, BitVec.getLsbD_extractLsb', hdr3Word_getLsbD, addr8Of_getLsbD]
    grind
  obtain ⟨-, hread, -⟩ := hdr3Word_fields addr7 read
  have hlow : (getField 0 10 (hdr3Word (addr8Of addr7 read) read)).getLsbD 0 = read := by
    simp only [getField, BitVec.getLsbD_extractLsb', hdr3Word_getLsbD, addr8Of_getLsbD]
    rfl
  have haddr : (getField 0 10 (hdr3Word (addr8Of addr7 read) read)).extractLsb' 1 7 = addr7 := by
    apply BitVec.eq_of_getLsbD_eq
    intro i hi
    simp only [getField, BitVec.getLsbD_extractLsb', hdr3Word_getLsbD, addr8Of_getLsbD]
    grind
  exact (if_pos (by rw [hmatch]; exact decide_eq_true hsmall)).trans
    ((if_pos (hread.trans hlow.symm)).trans (by rw [hread, haddr]))

theorem decodeHdr3_eq_ok {w : Word} {i : Instr} (h : decodeHdr3 w = .ok i) : i.format = .hdr3 ∧ encode i = [w] := by
  unfold decodeHdr3 at h
  simp only [Bool.and_eq_true, decide_eq_true_eq] at h
  split at h
  · rename_i hrow
    obtain ⟨hmatch, hsmall⟩ := hrow
    split at h
    · rename_i hdir
      cases h
      rw [matchesRow_iff] at hmatch
      rw [toNat_lt_two_pow_iff] at hsmall
      refine ⟨rfl, congrArg (fun w => [w]) (BitVec.eq_of_getLsbD_eq fun i hi => ?_)⟩
      have hbit := hmatch i
      have hhigh := hsmall i
      simp only [BitVec.getLsbD_not, BitVec.getLsbD_or, getLsbD_fieldMask, BitVec.ofNat_eq_ofNat, BitVec.getLsbD_zero,
        hdr3Word_getLsbD, addr8Of_getLsbD, getField, BitVec.getLsbD_extractLsb'] at hbit hhigh hdir ⊢
      grind
    · cases h
  · cases h

/-! ### Command words and responses -/

/-- CMD0 is made of its fields, where its reserved bits are 0 (30_encoding.md R101, R104). -/
theorem cmdWord0_of_fields {c0 : Word} (h : c0.extractLsb' 20 3 = 0) :
    cmdWord0 (c0.extractLsb' 28 4) (c0.extractLsb' 24 4) (c0.getLsbD 23) (c0.extractLsb' 7 13) (c0.extractLsb' 0 7) =
      c0 := by
  apply BitVec.eq_of_getLsbD_eq
  intro i hi
  have hbit := congrArg (BitVec.getLsbD · (i - 20)) h
  simp only [BitVec.getLsbD_extractLsb', BitVec.ofNat_eq_ofNat, BitVec.getLsbD_zero, cmdWord0_getLsbD,
    BitVec.getLsbD_ofBool] at hbit ⊢
  obtain rfl | hne := eq_or_ne i 23
  · rfl
  · grind

/-- Clearing bits 19:7 clears `len` and nothing else (30_encoding.md R101). -/
theorem cmdWord0_clear_len (op ctlr : BitVec 4) (ten : Bool) (len : BitVec 13) (addr7 : BitVec 7) :
    cmdWord0 op ctlr ten len addr7 &&& 0xFFF0007F = cmdWord0 op ctlr ten 0 addr7 := by
  have hmask : (0xFFF0007F : Word) = ~~~fieldMask 7 13 := by decide
  apply BitVec.eq_of_getLsbD_eq
  intro i hi
  simp only [hmask, BitVec.getLsbD_and, BitVec.getLsbD_not, getLsbD_fieldMask, cmdWord0_getLsbD, BitVec.ofNat_eq_ofNat,
    BitVec.getLsbD_zero]
  grind

/-- RSP0 is made of its kind code and `present` (30_encoding.md R111). -/
theorem rspWord0_of_matchesRow {kind : BitVec 3} {r0 : Word}
    (h : matchesRow 0xFFFFFFF7 (kind.setWidth 32) r0 = true) : rspWord0 kind (r0.getLsbD 3) = r0 := by
  have hmask : (0xFFFFFFF7 : Word) = ~~~fieldMask 3 1 := by decide
  rw [hmask, matchesRow_iff] at h
  apply BitVec.eq_of_getLsbD_eq
  intro i hi
  have hbit := h i
  simp only [BitVec.getLsbD_not, getLsbD_fieldMask, BitVec.getLsbD_setWidth, rspWord0_getLsbD,
    BitVec.getLsbD_ofBool] at hbit ⊢
  obtain rfl | hne := eq_or_ne i 3
  · rfl
  · grind

theorem decodeResponse_responseOf (k : Machine.Kind) (present : Bool) (detail : Word) :
    decodeResponse (rspWord0 k.code present) detail = .ok (Machine.responseOf k detail present) := by
  cases k <;> cases present <;> rfl

theorem encode_responseOf (k : Machine.Kind) (present : Bool) (detail : Word) :
    encode (Machine.responseOf k detail present) = [rspWord0 k.code present, detail] := by
  cases k <;> rfl

/-- Words on the response port that decode are those of one of the six kinds (30_encoding.md R111, R112). -/
theorem decodeResponse_eq_ok {r0 r1 : Word} {i : Instr} (h : decodeResponse r0 r1 = .ok i) :
    ∃ k : Machine.Kind, r0 = rspWord0 k.code (r0.getLsbD 3) ∧ i = Machine.responseOf k r1 (r0.getLsbD 3) := by
  have hrow (k : Machine.Kind) (hmatch : matchesRow 0xFFFFFFF7 (k.code.setWidth 32) r0 = true) :
      r0 = rspWord0 k.code (r0.getLsbD 3) := (rspWord0_of_matchesRow hmatch).symm
  unfold decodeResponse at h
  split at h
  · cases h; exact ⟨.ok, hrow .ok ‹_›, rfl⟩
  split at h
  · cases h; exact ⟨.timeout, hrow .timeout ‹_›, rfl⟩
  split at h
  · cases h; exact ⟨.noAcknowledge, hrow .noAcknowledge ‹_›, rfl⟩
  split at h
  · cases h; exact ⟨.arbitrationLost, hrow .arbitrationLost ‹_›, rfl⟩
  split at h
  · cases h; exact ⟨.unsupportedAddressWidth, hrow .unsupportedAddressWidth ‹_›, rfl⟩
  split at h
  · cases h; exact ⟨.busNotReady, hrow .busNotReady ‹_›, rfl⟩
  · cases h

/-- The code of an operation, CMD0[31:28] (30_encoding.md Table 30-2). -/
def CommandOp.code : CommandOp → BitVec 4
  | .init => 1
  | .write => 2
  | .read => 3
  | .probe => 4

theorem decodeOp_code (op : CommandOp) : decodeOp op.code = .ok op := by
  cases op <;> rfl

theorem decodeOp_eq_ok {code : BitVec 4} {op : CommandOp} (h : decodeOp code = .ok op) : code = op.code := by
  unfold decodeOp at h
  split at h
  · cases h; assumption
  split at h
  · cases h; assumption
  split at h
  · cases h; assumption
  split at h
  · cases h; assumption
  · cases h

/-- CMD0 made of a command's fields (30_encoding.md R101). -/
def CommandFields.word (c : CommandFields) : Word := cmdWord0 c.op.code c.ctlr c.ten c.len c.addr7

theorem decodeCmd0_word (c : CommandFields) : decodeCmd0 c.word = .ok c := by
  obtain ⟨hop, hctlr, hten, hzero, hlen, haddr⟩ := cmdWord0_fields c.op.code c.ctlr c.ten c.len c.addr7
  unfold decodeCmd0 CommandFields.word
  rw [if_neg (not_not.mpr hzero), hop, decodeOp_code, hctlr, hten, hlen, haddr]

theorem decodeCmd0_eq_ok {c0 : Word} {c : CommandFields} (h : decodeCmd0 c0 = .ok c) : c0 = c.word := by
  unfold decodeCmd0 at h
  split at h
  · cases h
  · rename_i hzero
    split at h
    · rename_i op hop
      cases h
      rw [CommandFields.word, ← decodeOp_eq_ok hop, cmdWord0_of_fields (not_not.mp hzero)]
    · cases h

theorem decodeCommand_word (c : CommandFields) (buf : Addr) : decodeCommand c.word buf = .ok (c.instr buf) := by
  rw [decodeCommand, decodeCmd0_word]

theorem decodeCommand_eq_ok {c0 : Word} {c1 : Addr} {i : Instr} (h : decodeCommand c0 c1 = .ok i) :
    ∃ c : CommandFields, c0 = c.word ∧ i = c.instr c1 := by
  unfold decodeCommand at h
  split at h
  · rename_i c hc
    cases h
    exact ⟨c, decodeCmd0_eq_ok hc, rfl⟩
  · cases h

theorem decodeState_eq_ok {code : Nat} {i : Instr} (h : decodeState code = .ok i) :
    i.format = .useq ∧ encode i = [BitVec.ofNat 32 code] := by
  unfold decodeState at h
  split at h <;> cases h <;> exact ⟨rfl, rfl⟩

theorem decodeState_eq_error_iff {code : Nat} : decodeState code = .error .stateCode ↔ 19 ≤ code := by
  constructor
  · intro h
    by_contra hlt
    interval_cases code <;> cases h
  · intro h
    obtain ⟨n, rfl⟩ := Nat.exists_eq_add_of_le' h
    rfl

/-! ### The obligations of the encodings -/

/-- Settles O1, row by row: the encoder's word of a format has its operands in the format's fields and the row's fixed
bits around them. -/
theorem decodingInvertsEncoding : Obligations.DecodingInvertsEncoding := by
  intro i
  cases i with
  | init ctlr ten len addr7 buf => exact decodeCommand_word ⟨.init, ctlr, ten, len, addr7⟩ buf
  | write ctlr ten len addr7 buf => exact decodeCommand_word ⟨.write, ctlr, ten, len, addr7⟩ buf
  | read ctlr ten len addr7 buf => exact decodeCommand_word ⟨.read, ctlr, ten, len, addr7⟩ buf
  | probe ctlr ten addr7 buf => exact decodeCommand_word ⟨.probe, ctlr, ten, 0, addr7⟩ buf
  | hdr1 seq ctlrId => exact decodeHdr1_hdr1Word seq ctlrId
  | hdr2 sizeMinus1 => exact decodeHdr2_hdr2Word sizeMinus1
  | hdr3 read addr7 => exact decodeHdr3_hdr3Word read addr7
  | rspOk p d => exact decodeResponse_responseOf .ok p d
  | rspTimeout p d => exact decodeResponse_responseOf .timeout p d
  | rspNoAcknowledge p d => exact decodeResponse_responseOf .noAcknowledge p d
  | rspArbitrationLost p d => exact decodeResponse_responseOf .arbitrationLost p d
  | rspUnsupportedAddressWidth p d => exact decodeResponse_responseOf .unsupportedAddressWidth p d
  | rspBusNotReady p d => exact decodeResponse_responseOf .busNotReady p d
  | _ => rfl

/-- A command's words are the encoding of the command, PROBE's ignored `len` apart (30_encoding.md R101, R102). -/
theorem CommandFields.encode_instr (c : CommandFields) (buf : Addr) :
    (c.instr buf).format = .cmd ∧
    ((∀ ctlr ten addr7 b, c.instr buf ≠ .probe ctlr ten addr7 b) → encode (c.instr buf) = [c.word, buf]) ∧
    (∀ ctlr ten addr7 b, c.instr buf = .probe ctlr ten addr7 b →
      ∃ c0, [c.word, buf] = [c0, b] ∧ encode (c.instr buf) = [c0 &&& 0xFFF0007F, b]) := by
  obtain ⟨op, ctlr, ten, len, addr7⟩ := c
  cases op with
  | init | write | read => exact ⟨rfl, fun _ => rfl, fun _ _ _ _ h => by cases h⟩
  | probe =>
    refine ⟨rfl, fun h => absurd rfl (h ctlr ten addr7 buf), fun _ _ _ _ h => ?_⟩
    cases h
    exact ⟨_, rfl, congrArg (fun w => [w, buf]) (cmdWord0_clear_len 4 ctlr ten len addr7).symm⟩

/-- Settles O2, place by place: words that decode have the fixed bits of the row they decode to, so they are made of
the fields read from them. -/
theorem encodingInvertsDecoding : Obligations.EncodingInvertsDecoding := by
  intro f ws i h
  have other (hf : i.format = f) (hcmd : f ≠ .cmd) (hws : encode i = ws) :
      i.format = f ∧ ((∀ ctlr ten addr7 buf, i ≠ .probe ctlr ten addr7 buf) → encode i = ws) ∧
      (∀ ctlr ten addr7 buf, i = .probe ctlr ten addr7 buf →
        ∃ c0, ws = [c0, buf] ∧ encode i = [c0 &&& 0xFFF0007F, buf]) :=
    ⟨hf, fun _ => hws, fun _ _ _ _ hi => absurd (by rw [← hf, hi]; rfl) hcmd⟩
  unfold decode at h
  split at h
  · obtain ⟨c, rfl, rfl⟩ := decodeCommand_eq_ok h
    exact c.encode_instr _
  · exact other (decodeHdr1_eq_ok h).1 (by decide) (decodeHdr1_eq_ok h).2
  · exact other (decodeHdr2_eq_ok h).1 (by decide) (decodeHdr2_eq_ok h).2
  · exact other (decodeHdr3_eq_ok h).1 (by decide) (decodeHdr3_eq_ok h).2
  · obtain ⟨k, hr0, rfl⟩ := decodeResponse_eq_ok h
    exact other (by cases k <;> rfl) (by decide) (by rw [encode_responseOf, ← hr0])
  · obtain ⟨hf, hws⟩ := decodeState_eq_ok h
    exact other hf (by decide) (by rw [hws, BitVec.ofNat_toNat, BitVec.setWidth_eq])
  · cases h

/-- Settles O4: each word is decoded in its place. -/
theorem wordsOfTheSpecDecode : Obligations.WordsOfTheSpecDecode :=
  ⟨rfl, rfl, rfl, rfl, rfl, rfl, rfl, rfl, rfl, rfl, rfl, rfl⟩

/-- Settles O5, from the 19 codes that name a state. -/
theorem unusedStateCodesRejected : Obligations.UnusedStateCodesRejected := fun _ => decodeState_eq_error_iff

/-- Settles O6: every bit of the three words, field by field. -/
theorem headerWordLayout : Obligations.HeaderWordLayout := ⟨hdr1Word_fields, hdr2Word_fields, hdr3Word_fields⟩

namespace Machine

/-- Settles O43: `neg32` is the negation of words, whose only fixed values near 0 are those of 0 and 1; neither has bit 2
or bit 3. -/
theorem negatedSnapshotsAreDistinguishable : Obligations.NegatedSnapshotsAreDistinguishable := by
  intro v
  simp only [neg32_eq_neg, neg_neg, true_and]
  intro hbit
  constructor
  · intro h
    rw [neg_eq_zero.mp h] at hbit
    exact absurd hbit (by decide)
  · intro h
    rw [neg_eq_iff_eq_neg.mp h] at hbit
    exact absurd hbit (by decide)

end Machine
end Sys2Proof

/-! ## Words between the buffer and `stage` (20_memory.md R72, R73; 41_word_mover.md R152 to R154, R157, R163)

A completed fetch takes the word at `ptr`, on either path; what it stages has the word's payload bytes, and what a store
puts back has those of `stage`. -/

namespace Sys2Proof.Machine

section Fetch

variable {s t : State} {a : Addr} {w : Word} {es : List Event}

/-- `s` after the buffer reads `es`. -/
def State.Of.fetched (s : State) (es : List Event) : State :=
  { s with trace := s.trace ++ es, portLimit := s.portLimit.map (· - es.length) }

/-- The events of a byte-wise fetch of a word, at ascending addresses (41_word_mover.md R153). -/
def byteReads (a : Addr) (w : Word) : List Event :=
  [.mr1 a (byteOf w 0), .mr1 (a + 1) (byteOf w 1), .mr1 (a + 2) (byteOf w 2), .mr1 (a + 3) (byteOf w 3)]

theorem admits_of_unlimited (h : s.portLimit = none) (n : Nat) : s.admits n = true := by rw [State.Of.admits, h]

/-! ### The word at an address -/

theorem memWord_of_bytes {m : List Host.Cell} {b0 b1 b2 b3 : Byte} (h0 : memGet m a.toNat = some b0)
    (h1 : memGet m (a + 1).toNat = some b1) (h2 : memGet m (a + 2).toNat = some b2)
    (h3 : memGet m (a + 3).toNat = some b3) : memWord m a = some (wordOf b0 b1 b2 b3) := by
  simp only [memWord, h0, h1, h2, h3]

theorem memWord_isSome {m : List Host.Cell}
    (h : ∀ j < 4, (memGet m (a + BitVec.ofNat Config.params.addrW j).toNat).isSome = true) :
    (memWord m a).isSome = true := by
  obtain ⟨b0, h0⟩ := Option.isSome_iff_exists.mp (h 0 (by decide))
  obtain ⟨b1, h1⟩ := Option.isSome_iff_exists.mp (h 1 (by decide))
  obtain ⟨b2, h2⟩ := Option.isSome_iff_exists.mp (h 2 (by decide))
  obtain ⟨b3, h3⟩ := Option.isSome_iff_exists.mp (h 3 (by decide))
  rw [BitVec.add_zero] at h0
  rw [memWord_of_bytes h0 h1 h2 h3, Option.isSome_some]

/-- The word at an address is the one with the bytes there (20_memory.md R72). -/
theorem memWord_eq_some_iff {m : List Host.Cell} : memWord m a = some w ↔
    ∀ j < 4, memGet m (a + BitVec.ofNat Config.params.addrW j).toNat = some (byteOf w j) := by
  constructor
  · intro h j hj
    exact memWord_byte h hj
  · intro h
    have h0 : memGet m a.toNat = some (byteOf w 0) := by simpa using h 0 (by decide)
    rw [memWord_of_bytes h0 (h 1 (by decide)) (h 2 (by decide)) (h 3 (by decide)), wordOf_byteOf]

/-- The word at an address depends on its four bytes only. -/
theorem memWord_congr {m m' : List Host.Cell} {a' : Addr}
    (h : ∀ j < 4, memGet m (a + BitVec.ofNat Config.params.addrW j).toNat =
      memGet m' (a' + BitVec.ofNat Config.params.addrW j).toNat) : memWord m a = memWord m' a' := by
  ext w
  rw [memWord_eq_some_iff, memWord_eq_some_iff]
  exact forall₂_congr fun j hj => by rw [h j hj]

theorem memWord_eq_none {m : List Host.Cell} {j : Nat} (hj : j < 4)
    (h : memGet m (a + BitVec.ofNat Config.params.addrW j).toNat = none) : memWord m a = none :=
  Option.eq_none_iff_forall_ne_some.mpr fun w hw => by rw [memWord_byte hw hj] at h; cases h

/-! ### The two paths of a fetch -/

theorem fetched_nil (s : State) : s.fetched [] = s := by
  simp only [State.Of.fetched, List.append_nil, List.length_nil, Nat.sub_zero, Option.map_id']

/-- A one-byte read after the reads `es` of the same visit. -/
theorem memRead1_after {b : Byte} (hb : memGet s.mem a.toNat = some b) (hadm : s.admits (es.length + 1) = true) :
    memRead1 a (s.fetched es) = .next (b, s.fetched (es ++ [.mr1 a b])) := by
  refine memRead1_eq_next.mpr ⟨b, hb, admits_after (k := es.length) rfl (by rwa [Nat.add_comm]), ?_⟩
  simp only [State.Of.fetched, State.Of.record, List.append_assoc, Option.map_map, List.length_append, Function.comp_def,
    Nat.sub_sub, List.length_singleton]

theorem memRead1_unreadable (hb : memGet s.mem a.toNat = none) : memRead1 a (s.fetched es) = .fault .bufferUnreadable := by
  have hb' : memGet (s.fetched es).mem a.toNat = none := hb
  rw [memRead1, hb']

theorem memReadBytes_admitted (hw : memWord s.mem a = some w) (hadm : s.admits 4 = true) :
    memReadBytes a s = .next (w, s.fetched (byteReads a w)) := by
  rw [memWord_eq_some_iff] at hw
  have hb0 : memGet s.mem a.toNat = some (byteOf w 0) := by simpa using hw 0 (by decide)
  have h0 := memRead1_after (es := []) hb0 (admits_mono hadm (by decide))
  have h1 := memRead1_after (a := a + 1) (es := [.mr1 a (byteOf w 0)]) (hw 1 (by decide)) (admits_mono hadm (by simp))
  have h2 := memRead1_after (a := a + 2) (es := [.mr1 a (byteOf w 0), .mr1 (a + 1) (byteOf w 1)]) (hw 2 (by decide))
    (admits_mono hadm (by simp))
  have h3 := memRead1_after (a := a + 3)
    (es := [.mr1 a (byteOf w 0), .mr1 (a + 1) (byteOf w 1), .mr1 (a + 2) (byteOf w 2)]) (hw 3 (by decide)) hadm
  rw [fetched_nil] at h0
  simp only [memReadBytes, h0, andThen_next, List.nil_append, List.cons_append, h1, h2, h3, wordOf_byteOf, byteReads]

/-- Of an unreadable word the reads go on to its first unreadable byte, and stop there (20_memory.md R79). -/
theorem memReadBytes_unreadable (hlimit : s.portLimit = none) (hw : memWord s.mem a = none) :
    memReadBytes a s = .fault .bufferUnreadable := by
  have hstop (x : Addr) (es : List Event) (hb : memGet s.mem x.toNat = none) := memRead1_unreadable (es := es) hb
  have hnext (x : Addr) (es : List Event) (b : Byte) (hb : memGet s.mem x.toNat = some b) :=
    memRead1_after (es := es) hb (admits_of_unlimited hlimit _)
  rw [memReadBytes, ← fetched_nil s]
  cases hb0 : memGet s.mem a.toNat with
  | none => simp only [hstop _ _ hb0, andThen_fault]
  | some b0 =>
    simp only [hnext _ _ _ hb0, andThen_next]
    cases hb1 : memGet s.mem (a + 1).toNat with
    | none => simp only [hstop _ _ hb1, andThen_fault]
    | some b1 =>
      simp only [hnext _ _ _ hb1, andThen_next]
      cases hb2 : memGet s.mem (a + 2).toNat with
      | none => simp only [hstop _ _ hb2, andThen_fault]
      | some b2 =>
        simp only [hnext _ _ _ hb2, andThen_next]
        cases hb3 : memGet s.mem (a + 3).toNat with
        | none => simp only [hstop _ _ hb3, andThen_fault]
        | some b3 => rw [memWord_of_bytes hb0 hb1 hb2 hb3] at hw; cases hw

theorem byteOf_clear_low (v : Word) : byteOf (v &&& 0xFFFFFF00) 0 = 0 := by
  rw [byteOf, BitVec.extractLsb'_and]
  exact BitVec.and_zero

theorem fetchWord_probe (hp : s.dProbe = true) : fetchWord s = .next (s.pad &&& 0xFFFFFF00, s.drawn) := by
  rw [fetchWord, if_pos hp]

theorem fetchWord_aligned (hp : s.dProbe = false) (ha : s.ptr.toNat % 4 = 0) (hadm : s.admits 1 = true)
    (hw : memWord s.mem s.ptr = some w) : fetchWord s = .next (w, s.fetched [.mr4 s.ptr w]) := by
  rw [fetchWord, if_neg (by simp [hp]), if_pos (by simpa [aligned4] using ha)]
  exact memRead4_eq_next.mpr ⟨w, hw, hadm, rfl⟩

theorem fetchWord_unaligned (hp : s.dProbe = false) (ha : s.ptr.toNat % 4 ≠ 0) (hadm : s.admits 4 = true)
    (hw : memWord s.mem s.ptr = some w) : fetchWord s = .next (w, s.fetched (byteReads s.ptr w)) := by
  rw [fetchWord, if_neg (by simp [hp]), if_neg (by simpa [aligned4] using ha)]
  exact memReadBytes_admitted hw hadm

theorem fetchWord_unreadable (hp : s.dProbe = false) (hlimit : s.portLimit = none) (hw : memWord s.mem s.ptr = none) :
    fetchWord s = .fault .bufferUnreadable := by
  rw [fetchWord, if_neg (by simp [hp])]
  split
  · rw [memRead4, hw]
  · exact memReadBytes_unreadable hlimit hw

/-- With every event completed, a fetch needs the word at `ptr` readable, for PROBE nothing (20_memory.md R79). -/
theorem fetchWord_unlimited (hlimit : s.portLimit = none)
    (hread : s.dProbe = false → (memWord s.mem s.ptr).isSome = true) :
    ∃ w u, fetchWord s = .next (w, u) ∧ u.portLimit = none := by
  cases hp : s.dProbe with
  | true => exact ⟨_, _, fetchWord_probe hp, hlimit⟩
  | false =>
    obtain ⟨w, hw⟩ := Option.isSome_iff_exists.mp (hread hp)
    have hleft (es : List Event) : (s.fetched es).portLimit = none := by rw [State.Of.fetched, hlimit, Option.map_none]
    by_cases ha : s.ptr.toNat % 4 = 0
    · exact ⟨w, _, fetchWord_aligned hp ha (admits_of_unlimited hlimit 1) hw, hleft _⟩
    · exact ⟨w, _, fetchWord_unaligned hp ha (admits_of_unlimited hlimit 4) hw, hleft _⟩

/-! ### What is staged -/

theorem exec_pushwWrFetch {u : State} (h : fetchWord s = .next (w, u)) :
    exec .pushwWrFetch s = .next ((stageWord w u).goto .wrPush) := by
  rw [exec, execPushwWrFetch, h, andThen_next]

/-- The visit WR_FETCH after the reads `es` of a word: the word is in `stage`, the payload bytes alone of a partial final
one (41_word_mover.md R152, R154). -/
theorem exec_pushwWrFetch_fetched (h : fetchWord s = .next (w, s.fetched es)) :
    ∃ t, exec .pushwWrFetch s = .next t ∧
      t = { s with
        st := .wrPush, trace := s.trace ++ es, portLimit := s.portLimit.map (· - es.length)
        stage := t.stage, draws := t.draws } ∧
      (¬(s.words = 1 ∧ s.rem ≠ 0) → t.stage = w ∧ t.draws = s.draws) ∧
      (s.words = 1 → s.rem ≠ 0 → ∀ j < s.rem.toNat, byteOf t.stage j = byteOf w j) := by
  obtain ⟨g, d, hstage, hfull, hpart⟩ := stageWord_spec w (s.fetched es)
  refine ⟨_, exec_pushwWrFetch h, ?_⟩
  rw [hstage]
  exact ⟨rfl, fun hf => hfull (partialFinal_false_iff.mpr hf), fun h1 h2 => hpart (partialFinal_iff.mpr ⟨h1, h2⟩)⟩

/-- What a fetch of a readable word leaves in `stage`, whichever path it took. -/
theorem exec_pushwWrFetch_stage (hp : s.dProbe = false) (h : exec .pushwWrFetch s = .next t) :
    ∃ w, memWord s.mem s.ptr = some w ∧
      (¬(s.words = 1 ∧ s.rem ≠ 0) → t.stage = w) ∧
      (s.words = 1 → s.rem ≠ 0 → ∀ j < s.rem.toNat, byteOf t.stage j = byteOf w j) := by
  obtain ⟨w, es, n, d, rfl, -, hread⟩ := execPushwWrFetch_next h
  obtain ⟨hw, -, -⟩ := hread hp
  obtain ⟨g, d', hstage, hfull, hpart⟩ := stageWord_spec w { s with trace := s.trace ++ es, portLimit := n, draws := d }
  refine ⟨w, hw, ?_⟩
  rw [hstage]
  exact ⟨fun hf => (hfull (partialFinal_false_iff.mpr hf)).1, fun h1 h2 => hpart (partialFinal_iff.mpr ⟨h1, h2⟩)⟩

/-- The payload bytes of a word: `rem` of a partial final one, else four (41_word_mover.md R154, R157). -/
theorem storeBytes_eq (s : State) : storeBytes s = if s.words = 1 ∧ s.rem ≠ 0 then s.rem.toNat else 4 := by
  simp only [storeBytes, partialFinal_iff]

theorem storeBytes_le (s : State) : storeBytes s ≤ 4 := by
  have := s.rem.isLt
  unfold storeBytes
  split <;> omega

/-- The payload bytes of `stage` after a fetch are those at `ptr` on (41_word_mover.md R154). -/
theorem exec_pushwWrFetch_payload (hp : s.dProbe = false) (h : exec .pushwWrFetch s = .next t) {j : Nat}
    (hj : j < storeBytes s) :
    memGet s.mem (s.ptr + BitVec.ofNat Config.params.addrW j).toNat = some (byteOf t.stage j) := by
  obtain ⟨w, hw, hfull, hpart⟩ := exec_pushwWrFetch_stage hp h
  rw [memWord_byte hw (hj.trans_le (storeBytes_le s))]
  rw [storeBytes_eq] at hj
  split at hj
  · rename_i hlast
    rw [hpart hlast.1 hlast.2 j hj]
  · rw [hfull ‹_›]

end Fetch

/-! ### The obligations of 20_memory.md and 41_word_mover.md about one word -/

/-- Settles O21: the aligned path reads the word at `ptr` in one event. -/
theorem alignedFetch : Obligations.AlignedFetch := by
  intro s b0 b1 b2 b3 hp ha hadm h0 h1 h2 h3
  exact exec_pushwWrFetch_fetched (fetchWord_aligned hp ha hadm (memWord_of_bytes h0 h1 h2 h3))

/-- Settles O22: the byte-wise path reads the four bytes of the word at `ptr`, in four events. -/
theorem byteWiseFetch : Obligations.ByteWiseFetch := by
  intro s b0 b1 b2 b3 hp ha hadm h0 h1 h2 h3
  have hfetch := fetchWord_unaligned hp ha hadm (memWord_of_bytes h0 h1 h2 h3)
  obtain ⟨hb0, hb1, hb2, hb3⟩ := byteOf_wordOf b0 b1 b2 b3
  rw [byteReads, hb0, hb1, hb2, hb3] at hfetch
  exact exec_pushwWrFetch_fetched hfetch

/-- Settles O23: both paths stage the word at their address, and the words are equal as their bytes are. -/
theorem bothFetchPathsGiveTheSameWord : Obligations.BothFetchPathsGiveTheSameWord := by
  intro s s' t t' hp hp' _ _ hbytes hstep hstep'
  obtain ⟨w, hw, hfull, hpart⟩ := exec_pushwWrFetch_stage hp hstep
  obtain ⟨w', hw', hfull', hpart'⟩ := exec_pushwWrFetch_stage hp' hstep'
  obtain rfl : w = w' := Option.some_injective _ (hw.symm.trans ((memWord_congr hbytes).trans hw'))
  refine ⟨fun h h' => (hfull h).trans (hfull' h').symm, fun h1 h1' hrem hrem' j hj => ?_⟩
  exact (hpart h1 hrem j hj).trans (hpart' h1' (hrem' ▸ hrem) j (hrem' ▸ hj)).symm

/-- Settles O24: the word of a PROBE is a draw with its low byte cleared; a pad draw leaves the payload byte. -/
theorem probeFetchIsAnInternalZero : Obligations.ProbeFetchIsAnInternalZero := by
  intro s hp
  obtain ⟨g, d, hstage, hfull, hpart⟩ := stageWord_spec (s.pad &&& 0xFFFFFF00) s.drawn
  refine ⟨_, exec_pushwWrFetch (fetchWord_probe hp), ?_⟩
  rw [hstage]
  refine ⟨rfl, (?_ : byteOf g 0 = byteOf (s.pad &&& 0xFFFFFF00) 0).trans (byteOf_clear_low _)⟩
  cases hlast : partialFinal s.words s.rem with
  | false => rw [(hfull hlast).1]
  | true =>
    have hrem : s.rem.toNat ≠ 0 := fun h0 => (partialFinal_iff.mp hlast).2 (BitVec.eq_of_toNat_eq h0)
    exact hpart hlast 0 (Nat.pos_of_ne_zero hrem)

/-- Settles O28: the payload bytes staged by the fetch are those at the WRITE's `ptr`, and a store puts the payload bytes
of its `stage` at the READ's. -/
theorem roundTripOfAWord : Obligations.RoundTripOfAWord := by
  intro s t u v n hp hn hfetch hstore hwords hrem hstage j hj
  have hs : storeBytes s = n := (storeBytes_eq s).trans hn.symm
  have hu : storeBytes u = n := by rw [storeBytes_eq, hwords, hrem, ← storeBytes_eq, hs]
  obtain ⟨-, es, limit, rfl, -⟩ := execPopwRdStore_next hstore
  have hbyte : byteOf u.stage j = byteOf t.stage j := hstage j hj
  rw [exec_pushwWrFetch_payload hp hfetch (hs ▸ hj), ← hbyte]
  exact memGet_memPutBytes_same _ _ _ _ _ (hu ▸ hj) (storeBytes_le u)

/-- Settles O29: each byte stored is read back, so the word read is the one with those bytes. -/
theorem wordsAreLittleEndian : Obligations.WordsAreLittleEndian := by
  intro m a w
  have hbytes : ∀ j < 4, memGet (memPutBytes m a w 4) (a + BitVec.ofNat Config.params.addrW j).toNat =
      some (byteOf w j) := fun j hj => memGet_memPutBytes_same m a w 4 j hj (Nat.le_refl 4)
  exact ⟨memWord_eq_some_iff.mpr hbytes, hbytes⟩

/-- Settles O58: with a byte missing there is no word at `ptr`, and either path stops. -/
theorem unreadableSourceIsStuck : Obligations.UnreadableSourceIsStuck := by
  intro s j hp hlimit hj hbyte
  rw [exec, execPushwWrFetch, fetchWord_unreadable hp hlimit (memWord_eq_none hj hbyte), andThen_fault]

end Sys2Proof.Machine

/-! ## The rows of Table 44-1 (44_transactions.md R209)

`State.Of.Row` lists what a step can lead to, row by row, and `step_row` says that every step is a row. What the port
events of a visit alone change is gathered in `State.Of.AfterEvents`. The statements about every step are read off the
rows. -/

namespace Sys2Proof.Machine

section Rows

/-- `u` is `s` after port events of a visit: the trace, the environment's fields, `stage` and `snap` may differ, and an
environment that completes every event still does. -/
def State.Of.AfterEvents (s u : State) : Prop :=
  ∃ stage snap trace limit answers draws, (s.portLimit = none → limit = none) ∧
    u = { s with
      stage := stage, snap := snap, trace := trace, portLimit := limit, regAnswers := answers, draws := draws }

/-- The rows that lead from one state to one other and change nothing but what port events change. -/
def moveRows : List (SeqState × SeqState) :=
  [(.clrRd, .clrWr), (.clrWr, .hdr1), (.hdr1, .hdr2), (.hdr2, .hdr3), (.wrFetch, .wrPush), (.rdWait, .rdPop),
    (.rdPop, .rdStore), (.recReset, .recCnfg), (.recSlRd, .recSlWr)]

/-- What a step from `s` can lead to, the rows of Table 44-1. -/
inductive State.Of.Row (s : State) : State → Prop
  | waits (hst : s.st = .idle) : s.Row s
  | accepts {rest : List HostAction} {d : Descriptor} (hst : s.st = .idle) (hd : d.Legal) :
    s.Row (((s.setHostIn rest).latch d).goto .check)
  | configures {rest : List HostAction} {index : Nat} {r : CfgRecord} {old : Ctlr} (hst : s.st = .idle)
    (hold : s.ct[index]? = some old) (hid : r.id.toNat = index) :
    s.Row ((s.setHostIn rest).setTable (s.ct.setIfInBounds index (configured old r)))
  | refuses {k : Kind} (hst : s.st = .check) (hk : k = .busNotReady ∨ k = .unsupportedAddressWidth) :
    s.Row ((s.setErr k 0).goto .respond)
  | initialises {c : Ctlr} (hst : s.st = .check) (hc : s.ct[s.dC.toNat]? = some c) (hinit : s.dInit = true) :
    s.Row ((s.setErr .ok 0).goto .recReset)
  | passes {c : Ctlr} (hst : s.st = .check) (hc : s.ct[s.dC.toNat]? = some c) (hinit : s.dInit = false)
    (hready : c.inited = true) (hten : s.dTen = false) : s.Row (s.goto .clrRd)
  | moves {u : State} {q : SeqState} (hu : s.AfterEvents u) (hq : (s.st, q) ∈ moveRows) : s.Row (u.goto q)
  | entersLoop {u : State} (hu : s.AfterEvents u) (hst : s.st = .hdr3) : s.Row (enterLoop u)
  | pushed {u : State} (hu : s.AfterEvents u) (hst : s.st = .wrPush) : s.Row ((u.setPolls 0).goto .wrWait)
  | nextFetch {u : State} (hu : s.AfterEvents u) (hst : s.st = .wrWait) (h0 : s.words ≠ 0) (h1 : s.words ≠ 1) :
    s.Row ((u.setCursor (s.words - 1) (s.ptr + 4)).goto .wrFetch)
  | nextPop {u : State} (hu : s.AfterEvents u) (hst : s.st = .rdStore) (h0 : s.words ≠ 0) (h1 : s.words ≠ 1) :
    s.Row ((((u.setMem (memPutBytes s.mem s.ptr s.stage (storeBytes s))).setCursor (s.words - 1) (s.ptr + 4)).setPolls
      0).goto .rdWait)
  | lastWord {u : State} {m : List Host.Cell} (hu : s.AfterEvents u) (h1 : s.words = 1)
    (hm : s.st = .wrWait ∧ m = s.mem ∨ s.st = .rdStore ∧ m = memPutBytes s.mem s.ptr s.stage (storeBytes s)) :
    s.Row ((((u.setMem m).setCursor (s.words - 1) (s.ptr + 4)).setPolls 0).goto .doneWait)
  | misses {u : State} (hu : s.AfterEvents u) (hpoll : s.st.isPoll = true)
    (hmore : (s.polls + 1).toNat ≠ Config.params.nPoll) : s.Row ((u.setPolls (s.polls + 1)).goto s.st)
  | expires {u : State} (hu : s.AfterEvents u) (hpoll : s.st.isPoll = true) :
    s.Row (raiseError .timeout timeoutDetail (u.setPolls (s.polls + 1)))
  | fails {u : State} {k : Kind} {v : Word} (hu : s.AfterEvents u) (hst : s.st = .doneWait)
    (hk : k = .noAcknowledge ∧ noAck v = true ∨ k = .arbitrationLost ∧ noAck v = false ∧ arbLost v = true) :
    s.Row (raiseError k (neg32 v) u)
  | succeeds {u : State} (hu : s.AfterEvents u) (hst : s.st = .doneWait) : s.Row ((u.setErr .ok 0).goto .respond)
  | recoversStandard {u : State} {c : Ctlr} (hu : s.AfterEvents u) (hst : s.st = .recCnfg)
    (hc : s.ct[s.dC.toNat]? = some c) (hdvc : c.isDvc = false) : s.Row (u.goto .recSlRd)
  | recovers {u : State} {c : Ctlr} (hu : s.AfterEvents u) (hst : s.st = .recCnfg ∨ s.st = .recSlWr)
    (hc : s.ct[s.dC.toNat]? = some c) : s.Row (finishRecovery c u)
  | responds {u : State} {r0 r1 : Word} (hu : s.AfterEvents u) (hst : s.st = .respond) :
    s.Row ((u.setRspPort r0 r1).goto .idle)

variable {s t u : State}

/-! ### What port events alone change -/

theorem map_pred_none {limit : Option Nat} (h : limit = none) : limit.map (· - 1) = none := by
  rw [h, Option.map_none]

theorem State.Of.AfterEvents.record (s : State) (e : Event) : s.AfterEvents (s.record e) :=
  ⟨_, _, _, _, _, _, map_pred_none, rfl⟩

theorem State.Of.AfterEvents.read (s : State) (e : Event) : s.AfterEvents (s.record e).consume :=
  ⟨_, _, _, _, _, _, map_pred_none, rfl⟩

theorem State.Of.AfterEvents.readStage (s : State) (e : Event) (w : Word) :
    s.AfterEvents ((s.record e).consume.setStage w) := ⟨_, _, _, _, _, _, map_pred_none, rfl⟩

theorem State.Of.AfterEvents.readSnap (s : State) (e : Event) (w : Word) :
    s.AfterEvents ((s.record e).consume.setSnap w) := ⟨_, _, _, _, _, _, map_pred_none, rfl⟩

theorem State.Of.AfterEvents.again (h : s.AfterEvents u) (e : Event) : s.AfterEvents (u.record e) := by
  obtain ⟨stage, snap, trace, limit, answers, draws, hlimit, rfl⟩ := h
  exact ⟨_, _, _, _, _, _, fun hs => map_pred_none (hlimit hs), rfl⟩

theorem stageWord_portLimit (w : Word) (s : State) : (stageWord w s).portLimit = s.portLimit := by
  obtain ⟨g, d, h, -, -⟩ := stageWord_spec w s
  rw [h]

theorem execPushwWrFetch_unlimited (hlimit : s.portLimit = none) (h : execPushwWrFetch s = .next t) :
    t.portLimit = none := by
  have hread (hp : s.dProbe = false) : (memWord s.mem s.ptr).isSome = true := by
    obtain ⟨w, es, n, d, -, -, hw⟩ := execPushwWrFetch_next h
    rw [(hw hp).1, Option.isSome_some]
  obtain ⟨w, u, hfetch, hu⟩ := fetchWord_unlimited hlimit hread
  obtain rfl := Host.Outcome.next.inj ((exec_pushwWrFetch hfetch).symm.trans h)
  rw [State.Of.goto_portLimit, stageWord_portLimit, hu]

theorem storeWord_unlimited (hlimit : s.portLimit = none) : ∃ n es, storeWord s = .next (s.stored n es) := by
  by_cases hpart : s.words = 1 ∧ s.rem ≠ 0
  · exact ⟨_, _, storeWord_partial hpart (admits_of_unlimited hlimit _)⟩
  · by_cases ha : s.ptr.toNat % 4 = 0
    · exact ⟨_, _, storeWord_aligned hpart ha (admits_of_unlimited hlimit _)⟩
    · exact ⟨_, _, storeWord_unaligned hpart ha (admits_of_unlimited hlimit _)⟩

theorem execPopwRdStore_unlimited (hlimit : s.portLimit = none) (h : execPopwRdStore s = .next t) :
    t.portLimit = none := by
  obtain ⟨n, es, hstore⟩ := storeWord_unlimited hlimit
  obtain rfl := Host.Outcome.next.inj
    ((execPopwRdStore_of_stored (execPopwRdStore_next h).1 hstore).symm.trans h)
  exact (congrArg (Option.map _) hlimit).trans (Option.map_none _)

/-! ### Every step is a row -/

theorem execSeqIdle_row (hst : s.st = .idle) (h : execSeqIdle s = .next t) : s.Row t := by
  obtain ⟨-, rfl⟩ | ⟨rest, d, -, hd, rfl⟩ | ⟨rest, index, r, old, -, hold, hid, rfl⟩ := execSeqIdle_next h
  · exact .waits hst
  · exact .accepts hst hd
  · exact .configures hst hold hid

theorem execSeqCheck_row (hst : s.st = .check) (h : execSeqCheck s = .next t) : s.Row t := by
  obtain ⟨k, hk, rfl⟩ | ⟨c, hc, hinit, rfl⟩ | ⟨c, hc, hinit, hready, hten, rfl⟩ := execSeqCheck_next h
  · exact .refuses hst hk
  · exact .initialises hst hc hinit
  · exact .passes hst hc hinit hready hten

theorem execPushwWrFetch_row (hst : s.st = .wrFetch) (h : execPushwWrFetch s = .next t) : s.Row t := by
  obtain ⟨w, es, n, d, rfl, -, -⟩ := execPushwWrFetch_next h
  obtain ⟨g, d', hstage, -, -⟩ := stageWord_spec w { s with trace := s.trace ++ es, portLimit := n, draws := d }
  have hlimit (hs : s.portLimit = none) : n = none := by
    have hleft := execPushwWrFetch_unlimited hs h
    rwa [State.Of.goto_portLimit, stageWord_portLimit] at hleft
  rw [hstage]
  exact .moves ⟨_, _, _, _, _, _, hlimit, rfl⟩ (by rw [hst]; decide)

theorem execPopwRdStore_row (hst : s.st = .rdStore) (h : execPopwRdStore s = .next t) : s.Row t := by
  have hlimit (hs : s.portLimit = none) := execPopwRdStore_unlimited hs h
  obtain ⟨v, hstore, hadvance⟩ := andThen_eq_next.mp h
  obtain ⟨es, n, rfl, -⟩ := storeWord_next hstore
  obtain ⟨h0, rfl⟩ := advanceWord_eq_next.mp hadvance
  by_cases h1 : s.words = 1
  · rw [if_pos h1] at hlimit ⊢
    exact .lastWord ⟨_, _, _, _, _, _, hlimit, rfl⟩ h1 (.inr ⟨hst, rfl⟩)
  · rw [if_neg h1, if_pos rfl] at hlimit ⊢
    exact .nextPop ⟨_, _, _, _, _, _, hlimit, rfl⟩ hst h0 h1

/-- A failing sample, counted after the read that left `u`: the poll goes on or expires (42_poller.md R170). -/
theorem pollMiss_row (hu : s.AfterEvents u) (hpoll : s.st.isPoll = true) (h : pollMiss s.st u = .next t) : s.Row t := by
  have hpolls : u.polls = s.polls := by
    obtain ⟨_, _, _, _, _, _, -, rfl⟩ := hu
    rfl
  obtain ⟨hmore, rfl⟩ | ⟨-, rfl⟩ := pollMiss_next h
  · rw [hpolls] at hmore ⊢
    exact .misses (hu.again _) hpoll hmore
  · rw [hpolls]
    exact .expires (hu.again _) hpoll

theorem sampled_write_row {e : Event} (hst : s.st = .wrWait)
    (h : advanceWord false (s.record e).consume = .next t) : s.Row t := by
  obtain ⟨h0, rfl⟩ := advanceWord_eq_next.mp h
  split
  · exact .lastWord (.read s e) ‹_› (.inl ⟨hst, rfl⟩)
  · exact .nextFetch (.read s e) hst h0 ‹_›

theorem judged_row {e : Event} (hst : s.st = .doneWait)
    (h : judgeSnapshot s.answer ((s.record e).consume.setSnap s.answer) = .next t) : s.Row t := by
  have hu := State.Of.AfterEvents.readSnap s e s.answer
  obtain ⟨hno, rfl⟩ | ⟨hno, harb, rfl⟩ | ⟨-, -, -, rfl⟩ | ⟨-, -, -, hmiss⟩ := judgeSnapshot_next h
  · exact .fails hu hst (.inl ⟨rfl, hno⟩)
  · exact .fails hu hst (.inr ⟨rfl, hno, harb⟩)
  · exact .succeeds hu hst
  · exact pollMiss_row hu (by rw [hst]; decide) (hst ▸ hmiss)

/-- Every step is a row of Table 44-1. -/
theorem step_row (h : step s = .next t) : s.Row t := by
  cases hst : s.st with
  | idle => exact execSeqIdle_row hst (step_idle hst ▸ h)
  | check => exact execSeqCheck_row hst (step_check hst ▸ h)
  | clrRd =>
    obtain ⟨c, -, -, -, rfl⟩ := (step_clrRd hst).mp h
    exact .moves (.readSnap s _ _) (by rw [hst]; decide)
  | clrWr =>
    obtain ⟨c, -, -, -, rfl⟩ := (step_clrWr hst).mp h
    exact .moves (.record s _) (by rw [hst]; decide)
  | hdr1 =>
    obtain ⟨c, -, -, -, rfl⟩ := (step_hdr1 hst).mp h
    exact .moves (.record s _) (by rw [hst]; decide)
  | hdr2 =>
    obtain ⟨c, -, -, -, rfl⟩ := (step_hdr2 hst).mp h
    refine .moves ?_ (by rw [hst]; decide)
    split
    · exact ⟨_, _, _, _, _, _, map_pred_none, rfl⟩
    · exact .record s _
  | hdr3 =>
    obtain ⟨c, -, -, -, rfl⟩ := (step_hdr3 hst).mp h
    exact .entersLoop (.record s _) hst
  | wrFetch => exact execPushwWrFetch_row hst (step_wrFetch hst ▸ h)
  | wrPush =>
    obtain ⟨c, -, -, -, rfl⟩ := (step_wrPush hst).mp h
    exact .pushed (.record s _) hst
  | wrWait =>
    obtain ⟨c, -, -, -, hsample⟩ := (step_wrWait hst).mp h
    split at hsample
    · exact sampled_write_row hst hsample
    · exact pollMiss_row (.read s _) (by rw [hst]; decide) (hst ▸ hsample)
  | rdWait =>
    obtain ⟨c, -, -, -, hsample⟩ := (step_rdWait hst).mp h
    split at hsample
    · cases hsample
      exact .moves (.read s _) (by rw [hst]; decide)
    · exact pollMiss_row (.read s _) (by rw [hst]; decide) (hst ▸ hsample)
  | rdPop =>
    obtain ⟨c, -, -, -, rfl⟩ := (step_rdPop hst).mp h
    exact .moves (.readStage s _ _) (by rw [hst]; decide)
  | rdStore => exact execPopwRdStore_row hst (step_rdStore hst ▸ h)
  | doneWait =>
    obtain ⟨c, -, -, -, hjudge⟩ := (step_doneWait hst).mp h
    exact judged_row hst hjudge
  | recReset =>
    obtain ⟨c, -, -, rfl⟩ := (step_recReset hst).mp h
    exact .moves (.record s _) (by rw [hst]; decide)
  | recCnfg =>
    obtain ⟨c, hc, -, -, rfl⟩ := (step_recCnfg hst).mp h
    cases hdvc : c.isDvc with
    | true => exact .recovers (.record s _) (.inl hst) hc
    | false => exact .recoversStandard (.record s _) hst hc hdvc
  | recSlRd =>
    obtain ⟨c, -, -, -, rfl⟩ := (step_recSlRd hst).mp h
    exact .moves (.readStage s _ _) (by rw [hst]; decide)
  | recSlWr =>
    obtain ⟨c, hc, -, -, rfl⟩ := (step_recSlWr hst).mp h
    exact .recovers (.record s _) (.inr hst) hc
  | respond =>
    obtain ⟨-, rfl⟩ := (step_respond hst).mp h
    exact .responds (.record s _) hst

end Rows
end Sys2Proof.Machine

/-! ## What the rows say of every step (10_state.md R23, R26; 20_memory.md R70; 44_transactions.md R208, R209) -/

namespace Sys2Proof.Machine

section ReadOff

variable {s t u : State}

/-- The descriptor registers and what the host presents are the same (10_state.md R26, R33). -/
def State.Of.SameCommand (s t : State) : Prop :=
  t.dC = s.dC ∧ t.dAddr8 = s.dAddr8 ∧ t.dBuf = s.dBuf ∧ t.dLen = s.dLen ∧ t.dRead = s.dRead ∧ t.dTen = s.dTen ∧
    t.dProbe = s.dProbe ∧ t.dInit = s.dInit ∧ t.hostIn = s.hostIn

theorem State.Of.Row.sameCommand (h : s.Row t) (hst : s.st ≠ .idle) : s.SameCommand t := by
  cases h with
  | waits hidle | accepts hidle | configures hidle => exact absurd hidle hst
  | refuses | initialises | passes => simp [State.Of.SameCommand]
  | moves hu | pushed hu | nextFetch hu | nextPop hu | lastWord hu | misses hu | expires hu | fails hu | succeeds hu
  | recoversStandard hu | responds hu =>
    obtain ⟨_, _, _, _, _, _, -, rfl⟩ := hu
    simp [-Config.params_pollsW, State.Of.SameCommand, raiseError]
  | entersLoop hu =>
    obtain ⟨_, _, _, _, _, _, -, rfl⟩ := hu
    simp [State.Of.SameCommand, enterLoop_eq]
  | recovers hu =>
    obtain ⟨_, _, _, _, _, _, -, rfl⟩ := hu
    simp [State.Of.SameCommand, finishRecovery_eq]

/-- The buffer space is left alone but for RD_STORE's store (41_word_mover.md R157, R158). -/
theorem State.Of.Row.mem (h : s.Row t) :
    t.mem = s.mem ∨ s.st = .rdStore ∧ t.mem = memPutBytes s.mem s.ptr s.stage (storeBytes s) := by
  cases h with
  | waits | accepts | configures | refuses | initialises | passes => exact .inl rfl
  | moves hu | pushed hu | nextFetch hu | misses hu | expires hu | fails hu | succeeds hu | recoversStandard hu
  | responds hu =>
    obtain ⟨_, _, _, _, _, _, -, rfl⟩ := hu
    exact .inl rfl
  | entersLoop hu =>
    obtain ⟨_, _, _, _, _, _, -, rfl⟩ := hu
    rw [enterLoop_eq]
    exact .inl rfl
  | recovers hu =>
    obtain ⟨_, _, _, _, _, _, -, rfl⟩ := hu
    rw [finishRecovery_eq]
    exact .inl rfl
  | nextPop hu hst => exact .inr ⟨hst, rfl⟩
  | lastWord hu h1 hm => exact hm.imp And.right id

/-- The table is left alone but for a configuration write's entry and the `inited` that INIT sets
(10_state.md R23 to R25). -/
theorem State.Of.Row.table (h : s.Row t) : t.ct = s.ct ∨
    (∃ index r old, s.st = .idle ∧ s.ct[index]? = some old ∧ r.id.toNat = index ∧
      t.ct = s.ct.setIfInBounds index (configured old r)) ∨
    ∃ c, (s.st = .recCnfg ∨ s.st = .recSlWr) ∧ s.dInit = true ∧ s.ct[s.dC.toNat]? = some c ∧
      t.ct = s.ct.setIfInBounds s.dC.toNat { c with inited := true } := by
  cases h with
  | waits | accepts | refuses | initialises | passes => exact .inl rfl
  | configures hst hold hid => exact .inr (.inl ⟨_, _, _, hst, hold, hid, rfl⟩)
  | moves hu | pushed hu | nextFetch hu | nextPop hu | lastWord hu | misses hu | expires hu | fails hu | succeeds hu
  | recoversStandard hu | responds hu =>
    obtain ⟨_, _, _, _, _, _, -, rfl⟩ := hu
    exact .inl rfl
  | entersLoop hu =>
    obtain ⟨_, _, _, _, _, _, -, rfl⟩ := hu
    exact .inl (enterLoop_ct _)
  | recovers hu hst hc =>
    obtain ⟨_, _, _, _, _, _, -, rfl⟩ := hu
    rw [finishRecovery_ct]
    split
    · exact .inr (.inr ⟨_, hst, ‹_›, hc, rfl⟩)
    · exact .inl rfl

theorem moveRows_keep_body : ∀ p ∈ moveRows, p.1.inBody = true → p.2.inBody = true := by decide

theorem inBody_of_isPoll : ∀ {q : SeqState}, q.isPoll = true → q.inBody = true := by
  intro q hq
  obtain rfl | rfl | rfl := isPoll_iff.mp hq <;> rfl

/-- The latch is written by CHECK and where the body ends, and a step of the body that leaves it alone stays there
(44_transactions.md R205, R207, R208). -/
theorem State.Of.Row.latch (h : s.Row t) :
    (t.errKind = s.errKind ∧ t.errDetail = s.errDetail ∧ (s.st.inBody = true → t.st.inBody = true)) ∨
    s.st = .check ∨
    (s.st.inBody = true ∧ t.st = .recReset ∧ t.errKind.isHardware = true) ∨
    (s.st = .doneWait ∧ t.st = .respond ∧ t.errKind = .ok ∧ t.errDetail = 0) := by
  cases h with
  | waits hst | accepts hst | configures hst =>
    exact .inl ⟨rfl, rfl, fun hbody => by rw [hst] at hbody; cases hbody⟩
  | refuses hst | initialises hst | passes hst => exact .inr (.inl hst)
  | moves hu hq =>
    obtain ⟨_, _, _, _, _, _, -, rfl⟩ := hu
    exact .inl ⟨rfl, rfl, moveRows_keep_body _ hq⟩
  | pushed hu | nextFetch hu | nextPop hu | lastWord hu =>
    obtain ⟨_, _, _, _, _, _, -, rfl⟩ := hu
    exact .inl ⟨rfl, rfl, fun _ => rfl⟩
  | misses hu =>
    obtain ⟨_, _, _, _, _, _, -, rfl⟩ := hu
    exact .inl ⟨rfl, rfl, id⟩
  | entersLoop hu =>
    obtain ⟨_, _, _, _, _, _, -, rfl⟩ := hu
    rw [enterLoop_eq]
    exact .inl ⟨rfl, rfl, fun _ => by simp only; split <;> rfl⟩
  | expires hu hpoll => exact .inr (.inr (.inl ⟨inBody_of_isPoll hpoll, rfl, rfl⟩))
  | fails hu hst hk =>
    refine .inr (.inr (.inl ⟨by rw [hst]; rfl, rfl, ?_⟩))
    obtain ⟨rfl, -⟩ | ⟨rfl, -⟩ := hk <;> rfl
  | succeeds hu hst => exact .inr (.inr (.inr ⟨hst, rfl, rfl, rfl⟩))
  | recoversStandard hu hst | responds hu hst =>
    obtain ⟨_, _, _, _, _, _, -, rfl⟩ := hu
    exact .inl ⟨rfl, rfl, fun hbody => by rw [hst] at hbody; cases hbody⟩
  | recovers hu hst =>
    obtain ⟨_, _, _, _, _, _, -, rfl⟩ := hu
    rw [finishRecovery_eq]
    exact .inl ⟨rfl, rfl, fun hbody => by obtain hst | hst := hst <;> (rw [hst] at hbody; cases hbody)⟩

theorem moveRows_successors : ∀ p ∈ moveRows, p.2 ∈ p.1.successors := by decide

theorem State.Of.Row.successor (h : s.Row t) : t.st ∈ s.st.successors := by
  cases h with
  | waits hst | accepts hst | configures hst | refuses hst | initialises hst | passes hst | pushed hu hst
  | nextFetch hu hst | nextPop hu hst | fails hu hst | succeeds hu hst | recoversStandard hu hst | responds hu hst =>
    simp [hst, SeqState.successors, raiseError]
  | moves hu hq => exact moveRows_successors _ hq
  | entersLoop hu hst =>
    rw [enterLoop_eq, hst]
    simp only
    split <;> decide
  | lastWord hu h1 hm => obtain ⟨hst, -⟩ | ⟨hst, -⟩ := hm <;> simp [hst, SeqState.successors]
  | misses hu hpoll | expires hu hpoll =>
    obtain hst | hst | hst := isPoll_iff.mp hpoll <;> simp [hst, SeqState.successors, raiseError]
  | recovers hu hst =>
    rw [finishRecovery_eq]
    obtain hst | hst := hst <;> simp [hst, SeqState.successors]

/-- Where a visit may perform buffer events (41_word_mover.md R158, R163). -/
theorem State.Of.Performs.buffer {e : Event} (h : s.Performs e) :
    (e.isBufferRead = true → s.st = .wrFetch ∧ s.dProbe = false) ∧ (e.isBufferWrite = true → s.st = .rdStore) := by
  cases h with
  | readIntStatus | clearIntStatus | pushTx | readFifoStatus | delay | popRx | resetPeriph | writeCnfg | readSlCnfg
  | writeSlCnfg | respond => exact ⟨fun he => absurd he Bool.false_ne_true, fun he => absurd he Bool.false_ne_true⟩
  | fetch hst hp he =>
    refine ⟨fun _ => ⟨hst, hp⟩, fun hw => ?_⟩
    cases e <;> simp [Event.Of.isBufferRead, Event.Of.isBufferWrite] at he hw
  | store hst he =>
    refine ⟨fun hr => ?_, fun _ => hst⟩
    cases e <;> simp [Event.Of.isBufferRead, Event.Of.isBufferWrite] at he hr

end ReadOff

/-! ### The obligations read off the rows -/

/-- Settles O42: the latch is written by CHECK and where the body ends, and nowhere else. -/
theorem hardwareErrorsGoThroughRecovery : Obligations.HardwareErrorsGoThroughRecovery := by
  intro s t hstep
  obtain ⟨hkind, hdetail, hkeep⟩ | hst | ⟨hbody, hrec, hhw⟩ | ⟨hst, hrsp, hok, hzero⟩ := (step_row hstep).latch
  · exact ⟨fun hs ht => absurd (hkeep hs) (by simp [ht]), fun _ _ => ⟨hkind, hdetail⟩, fun _ => ⟨hkind, hdetail⟩⟩
  · simp [hst, SeqState.inBody, SeqState.inRecovery]
  · refine ⟨fun _ _ => .inr ⟨hrec, hhw⟩, fun _ ht => ?_, fun hr => ?_⟩
    · rw [hrec] at ht
      cases ht
    · cases hst : s.st <;> simp [hst, SeqState.inBody, SeqState.inRecovery] at hbody hr
  · refine ⟨fun _ _ => .inl ⟨hrsp, hst, hok, hzero⟩, fun _ ht => ?_, fun hr => ?_⟩
    · rw [hrsp] at ht
      cases ht
    · rw [hst] at hr
      cases hr

/-- Settles O44, row by row. -/
theorem transitionsFollowTheTable : Obligations.TransitionsFollowTheTable := fun _ _ hstep => (step_row hstep).successor

/-- Settles O47: a step leaves the list or stores bytes into it, and a store keeps the canonical form. -/
theorem bufferSpaceStaysCanonical : Obligations.BufferSpaceStaysCanonical := by
  intro s t hwf hstep
  obtain hmem | ⟨-, hmem⟩ := (step_row hstep).mem
  · rwa [hmem]
  · rw [hmem]
    exact memPutBytes_wf _ _ _ _ hwf

/-- Settles O49: only the visits WR_FETCH and RD_STORE perform buffer events, and the invariant ties each of the two
states to its direction. -/
theorem bufferEventsByDirection : Obligations.BufferEventsByDirection := by
  intro s t hstep
  obtain ⟨es, htrace, hes⟩ := step_events hstep
  have hread : (∃ e ∈ es, e.isBufferRead = true) → s.st = .wrFetch ∧ s.dProbe = false := by
    rintro ⟨e, he, hr⟩
    exact (hes e he).buffer.1 hr
  have hwrite : (∃ e ∈ es, e.isBufferWrite = true) → s.st = .rdStore := by
    rintro ⟨e, he, hw⟩
    exact (hes e he).buffer.2 hw
  refine ⟨es, htrace, hread, hwrite, fun hinv h => hinv.loopDirection.1 ?_, fun hinv h => hinv.loopDirection.2 ?_,
    fun hst => ?_⟩
  · rw [(hread h).1]
    rfl
  · rw [hwrite h]
    rfl
  · exact (step_row hstep).mem.resolve_right fun h => hst h.1

/-- Settles O51: a configuration write keeps `inited`, and the end of INIT's recovery sets it in the entry `d_c` names. -/
theorem initedIsSetByInitAndNeverCleared : Obligations.InitedIsSetByInitAndNeverCleared := by
  intro s t i c hstep hc
  have hi : i < Config.params.nCtlr := (Vector.getElem?_eq_some_iff.mp hc).1
  obtain hct | ⟨index, r, old, -, hold, -, hct⟩ | ⟨c', hst, hinit, hc', hct⟩ := (step_row hstep).table
  · exact ⟨c, by rw [hct, hc], id, fun h0 h1 => absurd h1 (by simp [h0])⟩
  · by_cases hindex : index = i
    · subst hindex
      obtain rfl : old = c := Option.some_injective _ (hold.symm.trans hc)
      exact ⟨configured old r, by rw [hct, Vector.getElem?_setIfInBounds, if_pos rfl, if_pos hi], id,
        fun h0 h1 => absurd (h0.symm.trans h1) (by decide)⟩
    · exact ⟨c, by rw [hct, Vector.getElem?_setIfInBounds, if_neg hindex, hc], id,
        fun h0 h1 => absurd (h0.symm.trans h1) (by decide)⟩
  · by_cases hindex : s.dC.toNat = i
    · subst hindex
      obtain rfl : c' = c := Option.some_injective _ (hc'.symm.trans hc)
      exact ⟨_, by rw [hct]; exact getElem?_setInited hc, fun _ => rfl, fun _ _ => ⟨hinit, hst, rfl⟩⟩
    · exact ⟨c, by rw [hct, Vector.getElem?_setIfInBounds, if_neg hindex, hc], id,
        fun h0 h1 => absurd (h0.symm.trans h1) (by decide)⟩

/-- Settles O53, row by row. -/
theorem descriptorHeldDuringACommand : Obligations.DescriptorHeldDuringACommand :=
  fun _ _ hst hstep => (step_row hstep).sameCommand hst

end Sys2Proof.Machine

/-! ## The invariant (10_state.md sections 1 to 5, 44_transactions.md Table 44-1)

The clauses of `State.Of.Inv` are guarded by `st`. `inv_iff` sorts them by state (`State.Of.Phase`), so that a row is
followed by saying what holds in its first state and showing what its second asks. -/

namespace Sys2Proof.Machine

section Phases

variable {s t : State}

/-- The clauses that no state guards: the buffer space and the ids of the table. -/
def State.Of.Stored (s : State) : Prop :=
  memWf s.mem = true ∧ ∀ i : Fin Config.params.nCtlr, s.ct[i].id = 0 ∨ s.ct[i].id.toNat = i.val

/-- The descriptor is one that acceptance can latch (44_transactions.md R200). -/
def State.Of.Commanded (s : State) : Prop :=
  (s.dInit = false → lengthInDomain s.dLen = true) ∧ s.dAddr8.getLsbD 0 = s.dRead ∧
    (s.dProbe = true → s.dLen = 1 ∧ s.dRead = false ∧ s.dInit = false)

/-- CHECK has passed the command (44_transactions.md R201). -/
def State.Of.Checked (s : State) : Prop :=
  s.dC.toNat < Config.params.nCtlr ∧ s.dInit = false ∧ s.dTen = false ∧
    (s.ct[s.dC.toNat]?.map (·.inited)) = some true

/-- There is a word to move, and the cursor stands at it (41_word_mover.md R150, R159). -/
def State.Of.AtWord (s : State) : Prop :=
  s.words ≠ 0 ∧ s.words.toNat ≤ payloadWords s.dLen ∧ s.rem = BitVec.ofNat 2 s.dLen.toNat ∧
    s.ptr + BitVec.ofNat Config.params.addrW (4 * s.words.toNat) =
      s.dBuf + BitVec.ofNat Config.params.addrW (4 * payloadWords s.dLen)

/-- A poll in progress has samples left (42_poller.md R170). -/
def State.Of.InBudget (s : State) : Prop := s.polls.toNat < Config.params.nPoll

/-- What is latched is a response (30_encoding.md R112). -/
def State.Of.Latched (s : State) : Prop :=
  (responseOf s.errKind s.errDetail (presentBit s.dProbe s.errKind)).WellFormed = true

/-- RECOVER runs, for a cause it has (43_recovery.md R194, R198). -/
def State.Of.Recovering (s : State) : Prop :=
  s.dC.toNat < Config.params.nCtlr ∧ (if s.dInit then s.errKind = .ok else s.errKind.isHardware = true) ∧ s.Latched

/-- The entry is a standard controller's (43_recovery.md R193). -/
def State.Of.Standard (s : State) : Prop := (s.ct[s.dC.toNat]?.map (·.isDvc)) = some false

/-- What the invariant asks in each state of the sequencer. -/
def State.Of.Phase (s : State) : Prop :=
  match s.st with
  | .idle => True
  | .check => s.Commanded
  | .clrRd | .clrWr | .hdr1 | .hdr2 | .hdr3 => s.Commanded ∧ s.Checked
  | .wrFetch | .wrPush => s.Commanded ∧ s.Checked ∧ s.AtWord ∧ s.dRead = false
  | .wrWait => s.Commanded ∧ s.Checked ∧ s.AtWord ∧ s.dRead = false ∧ s.InBudget
  | .rdWait => s.Commanded ∧ s.Checked ∧ s.AtWord ∧ s.dRead = true ∧ s.InBudget
  | .rdPop | .rdStore => s.Commanded ∧ s.Checked ∧ s.AtWord ∧ s.dRead = true
  | .doneWait => s.Commanded ∧ s.Checked ∧ s.words = 0 ∧ s.InBudget
  | .recReset | .recCnfg => s.Commanded ∧ s.Recovering
  | .recSlRd | .recSlWr => s.Commanded ∧ s.Recovering ∧ s.Standard
  | .respond => s.Commanded ∧ s.Latched

theorem State.Of.Inv.stored (h : s.Inv) : s.Stored := ⟨h.memCanonical, h.tableIds⟩

theorem State.Of.Inv.commanded (h : s.Inv) (hst : s.st ≠ .idle) : s.Commanded :=
  ⟨h.lengthOk hst, h.directionBit hst, h.probeShape hst⟩

theorem State.Of.Inv.checked (h : s.Inv) (hst : s.st.inBody = true) : s.Checked :=
  ⟨h.ctlrInTable (by simp [hst]), h.bodyChecked hst⟩

theorem State.Of.Inv.recovering (h : s.Inv) (hst : s.st.inRecovery = true) : s.Recovering :=
  ⟨h.ctlrInTable (by simp [hst]), h.recoveryCause hst, h.latchOk (by simp [hst])⟩

theorem State.Of.Inv.phase (h : s.Inv) : s.Phase := by
  have hcmd := h.commanded
  have hchk := h.checked
  have hrec := h.recovering
  have hword : (s.st.inWriteLoop || s.st.inReadLoop) = true → s.AtWord := h.loopCursor
  have hbudget : s.st.isPoll = true → s.InBudget := h.pollBudget
  have hlatch : (s.st.inRecovery || decide (s.st = .respond)) = true → s.Latched := h.latchOk
  have hstd : s.st = .recSlRd ∨ s.st = .recSlWr → s.Standard := h.slCnfgStandard
  obtain ⟨hwrite, hread⟩ := h.loopDirection
  have hdone := h.wordsDone
  unfold State.Of.Phase
  generalize s.st = q at *
  cases q with
  | idle => trivial
  | check => exact hcmd (by decide)
  | clrRd | clrWr | hdr1 | hdr2 | hdr3 => exact ⟨hcmd (by decide), hchk rfl⟩
  | wrFetch | wrPush => exact ⟨hcmd (by decide), hchk rfl, hword rfl, hwrite rfl⟩
  | wrWait => exact ⟨hcmd (by decide), hchk rfl, hword rfl, hwrite rfl, hbudget rfl⟩
  | rdWait => exact ⟨hcmd (by decide), hchk rfl, hword rfl, hread rfl, hbudget rfl⟩
  | rdPop | rdStore => exact ⟨hcmd (by decide), hchk rfl, hword rfl, hread rfl⟩
  | doneWait => exact ⟨hcmd (by decide), hchk rfl, hdone rfl, hbudget rfl⟩
  | recReset | recCnfg => exact ⟨hcmd (by decide), hrec rfl⟩
  | recSlRd => exact ⟨hcmd (by decide), hrec rfl, hstd (.inl rfl)⟩
  | recSlWr => exact ⟨hcmd (by decide), hrec rfl, hstd (.inr rfl)⟩
  | respond => exact ⟨hcmd (by decide), hlatch rfl⟩

theorem State.Of.Phase.commanded (h : s.Phase) (hst : s.st ≠ .idle) : s.Commanded := by
  unfold State.Of.Phase at h
  generalize s.st = q at *
  cases q with
  | idle => exact absurd rfl hst
  | check => exact h
  | _ => exact h.1

theorem State.Of.Phase.checked (h : s.Phase) (hst : s.st.inBody = true) : s.Checked := by
  unfold State.Of.Phase at h
  generalize s.st = q at *
  cases q with
  | idle | check | recReset | recCnfg | recSlRd | recSlWr | respond => exact absurd hst Bool.false_ne_true
  | clrRd | clrWr | hdr1 | hdr2 | hdr3 => exact h.2
  | _ => exact h.2.1

theorem State.Of.Phase.recovering (h : s.Phase) (hst : s.st.inRecovery = true) : s.Recovering := by
  unfold State.Of.Phase at h
  generalize s.st = q at *
  cases q with
  | recReset | recCnfg => exact h.2
  | recSlRd | recSlWr => exact h.2.1
  | _ => exact absurd hst Bool.false_ne_true

theorem State.Of.Phase.latched (h : s.Phase) (hst : (s.st.inRecovery || decide (s.st = .respond)) = true) :
    s.Latched := by
  rw [Bool.or_eq_true, decide_eq_true_eq] at hst
  obtain hst | hst := hst
  · exact (h.recovering hst).2.2
  · rw [State.Of.Phase, hst] at h
    exact h.2

theorem State.Of.Phase.atWord (h : s.Phase) (hst : (s.st.inWriteLoop || s.st.inReadLoop) = true) : s.AtWord := by
  unfold State.Of.Phase at h
  generalize s.st = q at *
  cases q with
  | wrFetch | wrPush | wrWait | rdWait | rdPop | rdStore => exact h.2.2.1
  | _ => exact absurd hst Bool.false_ne_true

theorem State.Of.Phase.direction (h : s.Phase) :
    (s.st.inWriteLoop = true → s.dRead = false) ∧ (s.st.inReadLoop = true → s.dRead = true) := by
  unfold State.Of.Phase at h
  generalize s.st = q at *
  cases q with
  | wrFetch | wrPush => exact ⟨fun _ => h.2.2.2, fun hst => absurd hst Bool.false_ne_true⟩
  | wrWait => exact ⟨fun _ => h.2.2.2.1, fun hst => absurd hst Bool.false_ne_true⟩
  | rdWait => exact ⟨fun hst => absurd hst Bool.false_ne_true, fun _ => h.2.2.2.1⟩
  | rdPop | rdStore => exact ⟨fun hst => absurd hst Bool.false_ne_true, fun _ => h.2.2.2⟩
  | _ => exact ⟨fun hst => absurd hst Bool.false_ne_true, fun hst => absurd hst Bool.false_ne_true⟩

theorem State.Of.Phase.inBudget (h : s.Phase) (hst : s.st.isPoll = true) : s.InBudget := by
  unfold State.Of.Phase at h
  generalize s.st = q at *
  cases q with
  | wrWait | rdWait => exact h.2.2.2.2
  | doneWait => exact h.2.2.2
  | _ => exact absurd hst Bool.false_ne_true

theorem inv_iff : s.Inv ↔ s.Stored ∧ s.Phase := by
  refine ⟨fun h => ⟨h.stored, h.phase⟩, fun ⟨hstored, h⟩ => ?_⟩
  constructor
  case memCanonical => exact hstored.1
  case tableIds => exact hstored.2
  case ctlrInTable =>
    intro hst
    obtain hst | hst := (Bool.or_eq_true _ _).mp hst
    · exact (h.checked hst).1
    · exact (h.recovering hst).1
  case lengthOk => exact fun hst => (h.commanded hst).1
  case directionBit => exact fun hst => (h.commanded hst).2.1
  case probeShape => exact fun hst => (h.commanded hst).2.2
  case bodyChecked => exact fun hst => (h.checked hst).2
  case loopCursor => exact h.atWord
  case loopDirection => exact h.direction
  case wordsDone =>
    intro hst
    rw [State.Of.Phase, hst] at h
    exact h.2.2.1
  case pollBudget => exact h.inBudget
  case recoveryCause => exact fun hst => (h.recovering hst).2.1
  case latchOk => exact h.latched
  case slCnfgStandard =>
    rintro (hst | hst) <;>
    · rw [State.Of.Phase, hst] at h
      exact h.2.2

/-! ### What holds across a row -/

theorem State.Of.Commanded.congr (h : s.Commanded) (hsame : s.SameCommand t) : t.Commanded := by
  obtain ⟨-, haddr, -, hlen, hread, -, hprobe, hinit, -⟩ := hsame
  simpa only [State.Of.Commanded, haddr, hlen, hread, hprobe, hinit] using h

theorem State.Of.Checked.congr (h : s.Checked) (hsame : s.SameCommand t) (hct : t.ct = s.ct) : t.Checked := by
  obtain ⟨hc, -, -, -, -, hten, -, hinit, -⟩ := hsame
  simpa only [State.Of.Checked, hc, hten, hinit, hct] using h

theorem State.Of.AtWord.congr (h : s.AtWord) (hsame : s.SameCommand t) (hwords : t.words = s.words)
    (hrem : t.rem = s.rem) (hptr : t.ptr = s.ptr) : t.AtWord := by
  obtain ⟨-, -, hbuf, hlen, -⟩ := hsame
  simpa only [State.Of.AtWord, hbuf, hlen, hwords, hrem, hptr] using h

theorem words_pred {n : BitVec 11} (h : n ≠ 0) : (n - 1).toNat = n.toNat - 1 := by
  have hpos : n.toNat ≠ 0 := fun h0 => h (BitVec.eq_of_toNat_eq h0)
  have hlt := n.isLt
  rw [BitVec.toNat_sub]
  simp only [BitVec.toNat_ofNat, BitVec.ofNat_eq_ofNat]
  omega

/-- The cursor after an advance with another word left (41_word_mover.md R159). -/
theorem State.Of.AtWord.next (h : s.AtWord) (h1 : s.words ≠ 1) (hsame : s.SameCommand t)
    (hwords : t.words = s.words - 1) (hrem : t.rem = s.rem) (hptr : t.ptr = s.ptr + 4) : t.AtWord := by
  obtain ⟨-, -, hbuf, hlen, -⟩ := hsame
  obtain ⟨hpos, hle, hmod, hsum⟩ := h
  have hw0 : s.words.toNat ≠ 0 := fun h0 => hpos (BitVec.eq_of_toNat_eq h0)
  have hw1 : s.words.toNat ≠ 1 := fun h0 => h1 (BitVec.eq_of_toNat_eq h0)
  have hpred := words_pred hpos
  refine ⟨fun h0 => ?_, ?_, by rw [hrem, hlen, hmod], ?_⟩
  · rw [← hwords, h0] at hpred
    simp at hpred
    omega
  · rw [hwords, hpred, hlen]
    omega
  · rw [hwords, hpred, hptr, hbuf, hlen, ← hsum]
    apply BitVec.eq_of_toNat_eq
    have h4 : (4 : Addr).toNat = 4 := rfl
    simp only [BitVec.toNat_add, BitVec.toNat_ofNat, Config.params_addrW, h4]
    omega

theorem length_bounds {len : BitVec 13} (h : lengthInDomain len = true) : 1 ≤ len.toNat ∧ len.toNat ≤ 4096 := by
  rw [lengthInDomain, Bool.and_eq_true, decide_eq_true_eq, decide_eq_true_eq] at h
  exact h

/-- `words` is wide enough for every length in its domain (10_state.md R28). -/
theorem payloadWords_fits {len : BitVec 13} (h : lengthInDomain len = true) :
    (BitVec.ofNat 11 (payloadWords len)).toNat = payloadWords len := by
  obtain ⟨-, hmax⟩ := length_bounds h
  have hpay : payloadWords len = (len.toNat + 3) / 4 := rfl
  rw [BitVec.toNat_ofNat]
  omega

/-- The loop set-up puts the cursor at the first word of a length in its domain (41_word_mover.md R150). -/
theorem State.Of.AtWord.first (hlen : lengthInDomain t.dLen = true)
    (hwords : t.words = BitVec.ofNat 11 (payloadWords t.dLen)) (hrem : t.rem = BitVec.ofNat 2 t.dLen.toNat)
    (hptr : t.ptr = t.dBuf) : t.AtWord := by
  obtain ⟨hpos, -⟩ := length_bounds hlen
  have hpay : payloadWords t.dLen = (t.dLen.toNat + 3) / 4 := rfl
  have hnat : t.words.toNat = payloadWords t.dLen := by rw [hwords, payloadWords_fits hlen]
  refine ⟨fun h0 => ?_, hnat.le, hrem, by rw [hptr, hnat]⟩
  rw [h0] at hnat
  simp at hnat
  omega

theorem State.Of.Stored.row (h : s.Stored) (hrow : s.Row t) : t.Stored := by
  obtain ⟨hwf, hids⟩ := h
  constructor
  · obtain hmem | ⟨-, hmem⟩ := hrow.mem
    · rwa [hmem]
    · rw [hmem]
      exact memPutBytes_wf _ _ _ _ hwf
  · intro i
    obtain hct | ⟨index, r, old, -, -, hid, hct⟩ | ⟨c, -, -, hc, hct⟩ := hrow.table
    · rw [hct]
      exact hids i
    · by_cases hi : index = i.val
      · right
        simp [hct, hi, configured, hid]
      · simpa [hct, Vector.getElem_setIfInBounds, hi] using hids i
    · by_cases hi : s.dC.toNat = i.val
      · have hci : s.ct[i] = c := by simpa [hi] using hc
        have := hids i
        simpa [hct, hi, hci] using this
      · simpa [hct, Vector.getElem_setIfInBounds, hi] using hids i

/-! ### Every row leads from phase to phase -/

theorem wellFormed_error {k : Kind} {probe : Bool} (hk : k = .busNotReady ∨ k = .unsupportedAddressWidth) :
    (responseOf k 0 (presentBit probe k)).WellFormed = true := by
  obtain rfl | rfl := hk <;> cases probe <;> rfl

theorem wellFormed_timeout (probe : Bool) :
    (responseOf .timeout timeoutDetail (presentBit probe .timeout)).WellFormed = true := by
  cases probe <;> rfl

/-- The detail of a protocol error tells its kind (30_encoding.md Table 30-3, 42_poller.md R174). -/
theorem wellFormed_protocol {k : Kind} {v : Word} {probe : Bool}
    (hk : k = .noAcknowledge ∧ noAck v = true ∨ k = .arbitrationLost ∧ noAck v = false ∧ arbLost v = true) :
    (responseOf k (neg32 v) (presentBit probe k)).WellFormed = true := by
  rw [neg32_eq_neg]
  obtain ⟨rfl, hno⟩ | ⟨rfl, hno, harb⟩ := hk
  · have hdetail : noAckDetail (-v) = true := by rw [noAckDetail, neg_neg]; exact hno
    simpa [responseOf, Instr.WellFormed, presentBit] using hdetail
  · have hdetail : arbLostDetail (-v) = true := by
      rw [arbLostDetail, neg_neg]
      exact Bool.and_eq_true_iff.mpr ⟨harb, by rw [Bool.not_eq_true']; exact hno⟩
    simpa [responseOf, Instr.WellFormed, presentBit] using hdetail

/-- A row that changes nothing but what port events change leads from phase to phase. -/
theorem State.Of.Phase.moves {u : State} {q : SeqState} (h : s.Phase) (hu : s.AfterEvents u)
    (hq : (s.st, q) ∈ moveRows) : (u.goto q).Phase := by
  obtain ⟨_, _, _, _, _, _, -, rfl⟩ := hu
  unfold State.Of.Phase at h
  simp only [moveRows, List.mem_cons, Prod.mk.injEq, List.not_mem_nil, or_false] at hq
  obtain ⟨hst, rfl⟩ | ⟨hst, rfl⟩ | ⟨hst, rfl⟩ | ⟨hst, rfl⟩ | ⟨hst, rfl⟩ | ⟨hst, rfl⟩ | ⟨hst, rfl⟩ | ⟨hst, rfl⟩ |
    ⟨hst, rfl⟩ := hq <;> rw [hst] at h
  case inr.inr.inr.inr.inr.inl =>
    obtain ⟨hcmd, hchk, hword, hread, -⟩ := h
    exact ⟨hcmd, hchk, hword, hread⟩
  all_goals exact h

/-- In the body of a transaction the table stays as it is. -/
theorem State.Of.Row.table_of_body (hrow : s.Row t) (hbody : s.st.inBody = true) : t.ct = s.ct := by
  obtain hct | ⟨_, _, _, hst, -⟩ | ⟨_, hst | hst, -⟩ := hrow.table
  · exact hct
  all_goals
    rw [hst] at hbody
    exact absurd hbody Bool.false_ne_true

theorem ne_idle_of_inBody {q : SeqState} (h : q.inBody = true) : q ≠ .idle := by
  rintro rfl
  exact absurd h Bool.false_ne_true

theorem inBudget_of_zero (h : t.polls = 0) : t.InBudget := by
  rw [State.Of.InBudget, h]
  decide

/-- A sample that does not end its poll counts, within the budget, and changes nothing else the phases speak of
(42_poller.md R170). -/
theorem State.Of.Phase.counted (h : s.Phase) (hpoll : s.st.isPoll = true) (hst : t.st = s.st) (hcmd : t.Commanded)
    (hchk : t.Checked) (hsame : s.SameCommand t) (hwords : t.words = s.words) (hrem : t.rem = s.rem)
    (hptr : t.ptr = s.ptr) (hbudget : t.InBudget) : t.Phase := by
  have hread : t.dRead = s.dRead := hsame.2.2.2.2.1
  unfold State.Of.Phase at h ⊢
  rw [hst]
  obtain hq | hq | hq := isPoll_iff.mp hpoll <;> rw [hq] at h ⊢
  · obtain ⟨-, -, hword, hwrite, -⟩ := h
    exact ⟨hcmd, hchk, hword.congr hsame hwords hrem hptr, hread.trans hwrite, hbudget⟩
  · obtain ⟨-, -, hword, hdir, -⟩ := h
    exact ⟨hcmd, hchk, hword.congr hsame hwords hrem hptr, hread.trans hdir, hbudget⟩
  · obtain ⟨-, -, hdone, -⟩ := h
    exact ⟨hcmd, hchk, hwords.trans hdone, hbudget⟩

/-- The loop is entered at its first word, in the direction of the command (Table 44-1 rows HDR3). -/
theorem enterLoop_phase {u : State} (hcmd : (enterLoop u).Commanded) (hchk : (enterLoop u).Checked) :
    (enterLoop u).Phase := by
  have heq := enterLoop_eq u
  have hlen := hcmd.1 hchk.2.1
  generalize enterLoop u = t at *
  have hst : t.st = if t.dRead then .rdWait else .wrFetch := by rw [heq]
  have hword : t.AtWord := .first hlen (by rw [heq]; rfl) (by rw [heq]) (by rw [heq])
  unfold State.Of.Phase
  cases hread : t.dRead with
  | false =>
    rw [hread, if_neg Bool.false_ne_true] at hst
    rw [hst]
    exact ⟨hcmd, hchk, hword, rfl⟩
  | true =>
    have hpolls : t.polls = 0 := by
      have hu : u.dRead = true := by rwa [heq] at hread
      rw [heq, if_pos hu]
    rw [hread, if_pos rfl] at hst
    rw [hst]
    exact ⟨hcmd, hchk, hword, rfl, inBudget_of_zero hpolls⟩

theorem State.Of.Row.phase (hrow : s.Row t) (h : s.Phase) : t.Phase := by
  have hsame := hrow.sameCommand
  have hcmd (hst : s.st ≠ .idle) : t.Commanded := (h.commanded hst).congr (hsame hst)
  have hchk (hst : s.st.inBody = true) : t.Checked :=
    (h.checked hst).congr (hsame (ne_idle_of_inBody hst)) (hrow.table_of_body hst)
  cases hrow with
  | waits => exact h
  | accepts hst hd => exact hd
  | @configures rest index r old hst =>
    have hidle : ((s.setHostIn rest).setTable (s.ct.setIfInBounds index (configured old r))).st = .idle := hst
    rw [State.Of.Phase, hidle]
    trivial
  | refuses hst hk => exact ⟨hcmd (by simp [hst]), wellFormed_error hk⟩
  | initialises hst hc hinit =>
    exact ⟨hcmd (by simp [hst]), (Vector.getElem?_eq_some_iff.mp hc).1, by simp [hinit], rfl⟩
  | passes hst hc hinit hready hten =>
    exact ⟨hcmd (by simp [hst]), (Vector.getElem?_eq_some_iff.mp hc).1, hinit, hten, by simp [hc, hready]⟩
  | moves hu hq => exact h.moves hu hq
  | entersLoop hu hst => exact enterLoop_phase (hcmd (by simp [hst])) (hchk (by rw [hst]; rfl))
  | pushed hu hst =>
    rw [State.Of.Phase, hst] at h
    obtain ⟨-, -, hword, hread⟩ := h
    obtain ⟨_, _, _, _, _, _, -, rfl⟩ := hu
    exact ⟨hcmd (by simp [hst]), hchk (by rw [hst]; rfl), hword.congr (hsame (by simp [hst])) rfl rfl rfl, hread,
      inBudget_of_zero rfl⟩
  | nextFetch hu hst h0 h1 =>
    rw [State.Of.Phase, hst] at h
    obtain ⟨-, -, hword, hread, -⟩ := h
    obtain ⟨_, _, _, _, _, _, -, rfl⟩ := hu
    exact ⟨hcmd (by simp [hst]), hchk (by rw [hst]; rfl), hword.next h1 (hsame (by simp [hst])) rfl rfl rfl, hread⟩
  | nextPop hu hst h0 h1 =>
    rw [State.Of.Phase, hst] at h
    obtain ⟨-, -, hword, hread⟩ := h
    obtain ⟨_, _, _, _, _, _, -, rfl⟩ := hu
    exact ⟨hcmd (by simp [hst]), hchk (by rw [hst]; rfl), hword.next h1 (hsame (by simp [hst])) rfl rfl rfl, hread,
      inBudget_of_zero rfl⟩
  | lastWord hu h1 hm =>
    have hbody : s.st.inBody = true := by
      obtain ⟨hst, -⟩ | ⟨hst, -⟩ := hm <;> rw [hst] <;> rfl
    refine ⟨hcmd (ne_idle_of_inBody hbody), hchk hbody, ?_, inBudget_of_zero rfl⟩
    rw [State.Of.goto_words, State.Of.setPolls_words, State.Of.setCursor_words, h1]
    rfl
  | misses hu hpoll hmore =>
    have hbody := inBody_of_isPoll hpoll
    have hidle := ne_idle_of_inBody hbody
    have hcount := polls_succ (h.inBudget hpoll)
    have hbudget : (s.polls + 1).toNat < Config.params.nPoll := by
      have := h.inBudget hpoll
      rw [State.Of.InBudget] at this
      omega
    obtain ⟨_, _, _, _, _, _, -, rfl⟩ := hu
    exact h.counted hpoll rfl (hcmd hidle) (hchk hbody) (hsame hidle) rfl rfl rfl hbudget
  | expires hu hpoll =>
    have hbody := inBody_of_isPoll hpoll
    have hchk := hchk hbody
    refine ⟨hcmd (ne_idle_of_inBody hbody), hchk.1, ?_, wellFormed_timeout _⟩
    rw [hchk.2.1]
    rfl
  | fails hu hst hk =>
    have hchk := hchk (by rw [hst]; rfl)
    refine ⟨hcmd (by simp [hst]), hchk.1, ?_, wellFormed_protocol hk⟩
    rw [hchk.2.1]
    obtain ⟨rfl, -⟩ | ⟨rfl, -⟩ := hk <;> rfl
  | succeeds hu hst => exact ⟨hcmd (by simp [hst]), rfl⟩
  | recoversStandard hu hst hc hdvc =>
    have hrec := h.recovering (by rw [hst]; rfl)
    obtain ⟨_, _, _, _, _, _, -, rfl⟩ := hu
    exact ⟨hcmd (by simp [hst]), hrec, by simp [State.Of.Standard, hc, hdvc]⟩
  | recovers hu hst hc =>
    have hlatch := h.latched (by obtain hst | hst := hst <;> rw [hst] <;> rfl)
    have hcmd := hcmd (by obtain hst | hst := hst <;> simp [hst])
    obtain ⟨_, _, _, _, _, _, -, rfl⟩ := hu
    rw [finishRecovery_eq] at hcmd ⊢
    exact ⟨hcmd, hlatch⟩
  | responds hu hst => trivial

end Phases

/-! ### The obligations about the invariant -/

/-- Settles O45: by `inv_iff`, from the rows. -/
theorem invariantKeptByEveryStep : Obligations.InvariantKeptByEveryStep := by
  intro s t hinv hstep
  obtain ⟨hstored, hphase⟩ := inv_iff.mp hinv
  exact inv_iff.mpr ⟨hstored.row (step_row hstep), (step_row hstep).phase hphase⟩

/-- Settles O46: after reset the state is IDLE, whose phase asks nothing, and the ids are 0. -/
theorem invariantHoldsAtReset : Obligations.InvariantHoldsAtReset := by
  refine inv_iff.mpr ⟨⟨reset_mem_wf, fun i => .inl ?_⟩, trivial⟩
  have hct : State.reset.ct = Vector.replicate Config.params.nCtlr Ctlr.zero := rfl
  simp only [hct, Fin.getElem_fin, Vector.getElem_replicate]
  rfl

end Sys2Proof.Machine

/-! ## A command ends with its response (44_transactions.md R209, R211; 70_reset_and_hazards.md R272)

Every row outside IDLE brings `visitsLeft` down, and with every port event completed, aligned bases and a readable source
every visit goes on; so the response is reached within `visitsLeft` visits. -/

namespace Sys2Proof.Machine

section Progress

variable {s t : State}

/-! ### Every visit brings the response nearer -/

theorem nPoll_eq : Config.params.nPoll = 1001 := rfl

theorem words_pos (h : s.AtWord) : 0 < s.words.toNat :=
  Nat.pos_of_ne_zero fun h0 => h.1 (BitVec.eq_of_toNat_eq h0)

theorem State.Of.Phase.moves_nearer {u : State} {q : SeqState} (h : s.Phase) (hu : s.AfterEvents u)
    (hq : (s.st, q) ∈ moveRows) : (u.goto q).visitsLeft < s.visitsLeft := by
  obtain ⟨_, _, _, _, _, _, -, rfl⟩ := hu
  unfold State.Of.Phase at h
  simp only [moveRows, List.mem_cons, Prod.mk.injEq, List.not_mem_nil, or_false] at hq
  obtain ⟨hst, rfl⟩ | ⟨hst, rfl⟩ | ⟨hst, rfl⟩ | ⟨hst, rfl⟩ | ⟨hst, rfl⟩ | ⟨hst, rfl⟩ | ⟨hst, rfl⟩ | ⟨hst, rfl⟩ |
    ⟨hst, rfl⟩ := hq <;> rw [hst] at h <;> simp only [State.Of.visitsLeft, State.Of.goto_st, hst]
  case inr.inr.inr.inr.inl =>
    obtain ⟨-, -, hword, -⟩ := h
    have := words_pos hword
    simp only [State.Of.goto_words, nPoll_eq]
    omega
  case inr.inr.inr.inr.inr.inl =>
    obtain ⟨-, -, -, -, hbudget⟩ := h
    rw [State.Of.InBudget] at hbudget
    simp only [State.Of.goto_words]
    omega
  case inr.inr.inr.inr.inr.inr.inr.inl | inr.inr.inr.inr.inr.inr.inr.inr => decide
  all_goals
    simp only [State.Of.goto_words, State.Of.goto_dLen]
    omega

theorem enterLoop_nearer {u : State} (hu : s.AfterEvents u) (hst : s.st = .hdr3) (hlen : lengthInDomain s.dLen = true) :
    (enterLoop u).visitsLeft < s.visitsLeft := by
  have hpay : 1 ≤ payloadWords s.dLen := by
    have := length_bounds hlen
    rw [payloadWords, ceil4]
    omega
  obtain ⟨_, _, _, _, _, _, -, rfl⟩ := hu
  rw [enterLoop_eq]
  cases s.dRead with
  | false =>
    simp only [State.Of.visitsLeft, hst, Bool.false_eq_true, if_false, nPoll_eq]
    have hwords := payloadWords_fits hlen
    rw [payloadWords] at hwords hpay ⊢
    omega
  | true =>
    simp only [State.Of.visitsLeft, hst, if_true, nPoll_eq]
    have hwords := payloadWords_fits hlen
    rw [payloadWords] at hwords hpay ⊢
    omega

theorem State.Of.Row.nearer (hrow : s.Row t) (h : s.Phase) (hidle : s.st ≠ .idle) : t.visitsLeft < s.visitsLeft := by
  cases hrow with
  | waits hst | accepts hst | configures hst => exact absurd hst hidle
  | refuses hst hk =>
    simp only [State.Of.visitsLeft, hst, State.Of.goto_st]
    omega
  | initialises hst =>
    simp only [State.Of.visitsLeft, hst, State.Of.goto_st]
    omega
  | passes hst =>
    simp only [State.Of.visitsLeft, hst, State.Of.goto_st, State.Of.goto_dLen]
    omega
  | moves hu hq => exact h.moves_nearer hu hq
  | entersLoop hu hst =>
    have hchk := h.checked (by rw [hst]; rfl)
    exact enterLoop_nearer hu hst ((h.commanded hidle).1 hchk.2.1)
  | pushed hu hst =>
    obtain ⟨_, _, _, _, _, _, -, rfl⟩ := hu
    simp only [State.Of.visitsLeft, hst, State.Of.goto_st, State.Of.goto_words, State.Of.setPolls_words]
    omega
  | nextFetch hu hst h0 h1 =>
    have hbudget := h.inBudget (by rw [hst]; rfl)
    have hpred := words_pred h0
    obtain ⟨_, _, _, _, _, _, -, rfl⟩ := hu
    rw [State.Of.InBudget] at hbudget
    simp only [State.Of.visitsLeft, hst, State.Of.goto_st, State.Of.goto_words, State.Of.setCursor_words, hpred]
    omega
  | nextPop hu hst h0 h1 =>
    have hpred := words_pred h0
    have hmore : s.words.toNat ≠ 1 := fun h => h1 (BitVec.eq_of_toNat_eq h)
    have hpos := words_pos (h.atWord (by rw [hst]; rfl))
    obtain ⟨_, _, _, _, _, _, -, rfl⟩ := hu
    simp only [State.Of.visitsLeft, hst, State.Of.goto_st, State.Of.goto_words, State.Of.setPolls_words,
      State.Of.setCursor_words, hpred, nPoll_eq]
    omega
  | lastWord hu h1 hm =>
    simp only [State.Of.visitsLeft, State.Of.goto_st]
    obtain ⟨hst, -⟩ | ⟨hst, -⟩ := hm
    · have hbudget := h.inBudget (by rw [hst]; rfl)
      rw [State.Of.InBudget] at hbudget
      simp only [hst]
      omega
    · simp only [hst]
      omega
  | misses hu hpoll hmore =>
    have hbudget := h.inBudget hpoll
    have hcount := polls_succ hbudget
    rw [State.Of.InBudget] at hbudget
    obtain ⟨_, _, _, _, _, _, -, rfl⟩ := hu
    obtain hst | hst | hst := isPoll_iff.mp hpoll <;>
    · simp only [State.Of.visitsLeft, hst, State.Of.goto_st, State.Of.goto_words, State.Of.setPolls_words,
        State.Of.goto_polls, State.Of.setPolls_polls, hcount]
      omega
  | expires hu hpoll =>
    have hbudget := h.inBudget hpoll
    rw [State.Of.InBudget] at hbudget
    obtain hst | hst | hst := isPoll_iff.mp hpoll <;>
    · simp only [State.Of.visitsLeft, hst, raiseError, State.Of.goto_st]
      omega
  | fails hu hst =>
    have hbudget := h.inBudget (by rw [hst]; rfl)
    rw [State.Of.InBudget] at hbudget
    simp only [State.Of.visitsLeft, hst, raiseError, State.Of.goto_st]
    omega
  | succeeds hu hst =>
    simp only [State.Of.visitsLeft, hst, State.Of.goto_st]
    omega
  | recoversStandard hu hst =>
    simp only [State.Of.visitsLeft, hst, State.Of.goto_st]
    decide
  | recovers hu hst =>
    rw [finishRecovery_eq]
    obtain hst | hst := hst <;>
    · simp only [State.Of.visitsLeft, hst]
      decide
  | responds hu hst =>
    simp only [State.Of.visitsLeft, hst, State.Of.goto_st]
    decide

/-! ### Every visit goes on -/

/-- What a command needs of its environment to be served: every port event is completed, the bases are aligned, the source
of a WRITE is readable (44_transactions.md Table 44-2). -/
structure State.Of.Served (s : State) : Prop where
  inv : s.Inv
  unlimited : s.portLimit = none
  aligned : s.BasesAligned
  readable : s.SourceReadable

theorem entry_of_lt (h : s.dC.toNat < Config.params.nCtlr) : ∃ c, s.ct[s.dC.toNat]? = some c :=
  ⟨_, Vector.getElem?_eq_getElem h⟩

/-- The word at the cursor of a WRITE lies in its source (41_word_mover.md R150, R159; 44_transactions.md Table 44-2). -/
theorem State.Of.AtWord.readable (h : s.AtWord) (hsource : s.SourceReadable) (hread : s.dRead = false)
    (hprobe : s.dProbe = false) (hinit : s.dInit = false) : (memWord s.mem s.ptr).isSome = true := by
  have hpos := words_pos h
  obtain ⟨-, hle, -, hcursor⟩ := h
  refine memWord_isSome fun j hj => ?_
  have hk := hsource hread hprobe hinit (4 * (payloadWords s.dLen - s.words.toNat) + j) (by omega)
  have haddr : s.ptr + BitVec.ofNat Config.params.addrW j = s.dBuf +
      BitVec.ofNat Config.params.addrW (4 * (payloadWords s.dLen - s.words.toNat) + j) := by
    have hsum := congrArg BitVec.toNat hcursor
    apply BitVec.eq_of_toNat_eq
    simp only [BitVec.toNat_add, BitVec.toNat_ofNat, Config.params_addrW] at hsum ⊢
    omega
  rwa [haddr]

theorem execSeqCheck_goes_on (s : State) : ∃ t, execSeqCheck s = .next t := by
  unfold execSeqCheck
  split
  · exact ⟨_, rfl⟩
  · repeat' split
    all_goals exact ⟨_, rfl⟩

theorem pollMiss_goes_on (again : SeqState) (hlimit : s.portLimit = none) : ∃ t, pollMiss again s = .next t :=
  ⟨_, pollMiss_eq_next.mpr ⟨admits_of_unlimited hlimit 1, rfl⟩⟩

theorem judgeSnapshot_goes_on (v : Word) (hlimit : s.portLimit = none) : ∃ t, judgeSnapshot v s = .next t := by
  unfold judgeSnapshot
  repeat' split
  case isFalse => exact pollMiss_goes_on .doneWait hlimit
  all_goals exact ⟨_, rfl⟩

/-- The entry of a command past CHECK, and its registers, all aligned (20_memory.md R61, R62). -/
theorem State.Of.Served.entry (h : s.Served) (hin : (s.st.inBody || s.st.inRecovery) = true) :
    ∃ c, s.ct[s.dC.toNat]? = some c ∧
      aligned4 (txFifoAddr c) = true ∧ aligned4 (rxFifoAddr c) = true ∧ aligned4 (fifoStatusAddr c) = true ∧
      aligned4 (intStatusAddr c) = true ∧ aligned4 (cnfgAddr c) = true ∧ aligned4 (slCnfgAddr c) = true := by
  obtain ⟨c, hc⟩ := entry_of_lt (h.inv.ctlrInTable hin)
  obtain ⟨hctrl, hregs⟩ := h.aligned c hc
  obtain ⟨htx, hrx, hfifo, hint⟩ := fifoBlock_aligned hctrl
  exact ⟨c, hc, htx, hrx, hfifo, hint, controlBlock_aligned hregs⟩

theorem State.Of.Served.goes_on (h : s.Served) (hidle : s.st ≠ .idle) : ∃ t, step s = .next t := by
  have hentry := h.entry
  obtain ⟨hinv, hlimit, -, hsource⟩ := h
  have hphase := hinv.phase
  have hadm := admits_of_unlimited hlimit 1
  have hread (a : Addr) : (s.record (.rr a s.answer)).consume.portLimit = none := map_pred_none hlimit
  cases hst : s.st with
  | idle => exact absurd hst hidle
  | check => rw [step_check hst]; exact execSeqCheck_goes_on s
  | clrRd =>
    obtain ⟨c, hc, -, -, -, hint, -⟩ := hentry (by rw [hst]; rfl)
    exact ⟨_, (step_clrRd hst).mpr ⟨c, hc, hint, hadm, rfl⟩⟩
  | clrWr =>
    obtain ⟨c, hc, -, -, -, hint, -⟩ := hentry (by rw [hst]; rfl)
    exact ⟨_, (step_clrWr hst).mpr ⟨c, hc, hint, hadm, rfl⟩⟩
  | hdr1 =>
    obtain ⟨c, hc, htx, -⟩ := hentry (by rw [hst]; rfl)
    exact ⟨_, (step_hdr1 hst).mpr ⟨c, hc, htx, hadm, rfl⟩⟩
  | hdr2 =>
    obtain ⟨c, hc, htx, -⟩ := hentry (by rw [hst]; rfl)
    exact ⟨_, (step_hdr2 hst).mpr ⟨c, hc, htx, hadm, rfl⟩⟩
  | hdr3 =>
    obtain ⟨c, hc, htx, -⟩ := hentry (by rw [hst]; rfl)
    exact ⟨_, (step_hdr3 hst).mpr ⟨c, hc, htx, hadm, rfl⟩⟩
  | wrPush =>
    obtain ⟨c, hc, htx, -⟩ := hentry (by rw [hst]; rfl)
    exact ⟨_, (step_wrPush hst).mpr ⟨c, hc, htx, hadm, rfl⟩⟩
  | rdPop =>
    obtain ⟨c, hc, -, hrx, -⟩ := hentry (by rw [hst]; rfl)
    exact ⟨_, (step_rdPop hst).mpr ⟨c, hc, hrx, hadm, rfl⟩⟩
  | recCnfg =>
    obtain ⟨c, hc, -, -, -, -, hcnfg, -⟩ := hentry (by rw [hst]; rfl)
    exact ⟨_, (step_recCnfg hst).mpr ⟨c, hc, hcnfg, hadm, rfl⟩⟩
  | recSlRd =>
    obtain ⟨c, hc, -, -, -, -, -, hsl⟩ := hentry (by rw [hst]; rfl)
    exact ⟨_, (step_recSlRd hst).mpr ⟨c, hc, hsl, hadm, rfl⟩⟩
  | recSlWr =>
    obtain ⟨c, hc, -, -, -, -, -, hsl⟩ := hentry (by rw [hst]; rfl)
    exact ⟨_, (step_recSlWr hst).mpr ⟨c, hc, hsl, hadm, rfl⟩⟩
  | wrFetch =>
    have hword : s.dProbe = false → (memWord s.mem s.ptr).isSome = true := fun hp =>
      (hphase.atWord (by rw [hst]; rfl)).readable hsource (hphase.direction.1 (by rw [hst]; rfl)) hp
        (hphase.checked (by rw [hst]; rfl)).2.1
    obtain ⟨w, u, hfetch, -⟩ := fetchWord_unlimited hlimit hword
    exact ⟨_, (step_wrFetch hst).trans (exec_pushwWrFetch hfetch)⟩
  | wrWait =>
    obtain ⟨c, hc, -, -, hfifo, -⟩ := hentry (by rw [hst]; rfl)
    have hwords := (hphase.atWord (by rw [hst]; rfl)).1
    simp only [step_wrWait hst]
    cases htx : txReady s.answer with
    | true => exact ⟨_, c, hc, hfifo, hadm, advanceWord_eq_next.mpr ⟨hwords, rfl⟩⟩
    | false =>
      obtain ⟨t, ht⟩ := pollMiss_goes_on .wrWait (hread (fifoStatusAddr c))
      exact ⟨t, c, hc, hfifo, hadm, ht⟩
  | rdWait =>
    obtain ⟨c, hc, -, -, hfifo, -⟩ := hentry (by rw [hst]; rfl)
    simp only [step_rdWait hst]
    cases hrx : rxReady s.answer with
    | true => exact ⟨_, c, hc, hfifo, hadm, rfl⟩
    | false =>
      obtain ⟨t, ht⟩ := pollMiss_goes_on .rdWait (hread (fifoStatusAddr c))
      exact ⟨t, c, hc, hfifo, hadm, ht⟩
  | rdStore =>
    obtain ⟨n, es, hstore⟩ := storeWord_unlimited hlimit
    rw [step_rdStore hst]
    exact ⟨_, execPopwRdStore_of_stored (hphase.atWord (by rw [hst]; rfl)).1 hstore⟩
  | doneWait =>
    obtain ⟨c, hc, -, -, -, hint, -⟩ := hentry (by rw [hst]; rfl)
    obtain ⟨t, ht⟩ := judgeSnapshot_goes_on s.answer
      (s := (s.record (.rr (intStatusAddr c) s.answer)).consume.setSnap s.answer) (hread (intStatusAddr c))
    exact ⟨t, (step_doneWait hst).mpr ⟨c, hc, hint, hadm, ht⟩⟩
  | recReset =>
    obtain ⟨c, hc, -⟩ := hentry (by rw [hst]; rfl)
    exact ⟨_, (step_recReset hst).mpr ⟨c, hc, hadm, rfl⟩⟩
  | respond => exact ⟨_, (step_respond hst).mpr ⟨hadm, rfl⟩⟩

/-! ### A command stays served until its response -/

theorem State.Of.Row.unlimited (hrow : s.Row t) (h : s.portLimit = none) : t.portLimit = none := by
  cases hrow with
  | waits | accepts | configures | refuses | initialises | passes => exact h
  | moves hu | pushed hu | nextFetch hu | nextPop hu | lastWord hu | misses hu | expires hu | fails hu | succeeds hu
  | recoversStandard hu | responds hu =>
    obtain ⟨_, _, _, _, _, _, hlimit, rfl⟩ := hu
    exact hlimit h
  | entersLoop hu =>
    obtain ⟨_, _, _, _, _, _, hlimit, rfl⟩ := hu
    rw [enterLoop_eq]
    exact hlimit h
  | recovers hu =>
    obtain ⟨_, _, _, _, _, _, hlimit, rfl⟩ := hu
    rw [finishRecovery_eq]
    exact hlimit h

/-- A step outside IDLE leaves the bases of the command's entry (10_state.md R24, R25). -/
theorem State.Of.Row.basesAligned (hrow : s.Row t) (hidle : s.st ≠ .idle) (h : s.BasesAligned) : t.BasesAligned := by
  intro c' hc'
  rw [(hrow.sameCommand hidle).1] at hc'
  obtain hct | ⟨_, _, _, hst, -⟩ | ⟨c, -, -, hc, hct⟩ := hrow.table
  · exact h c' (hct ▸ hc')
  · exact absurd hst hidle
  · rw [hct, getElem?_setInited hc] at hc'
    cases hc'
    exact h c hc

theorem State.Of.Row.sourceReadable (hrow : s.Row t) (hinv : s.Inv) (hidle : s.st ≠ .idle) (h : s.SourceReadable) :
    t.SourceReadable := by
  obtain ⟨-, -, hbuf, hlen, hread, -, hprobe, hinit, -⟩ := hrow.sameCommand hidle
  intro hw hp hi
  rw [hread] at hw
  rw [hprobe] at hp
  rw [hinit] at hi
  rw [hbuf, hlen]
  obtain hmem | ⟨hst, -⟩ := hrow.mem
  · rw [hmem]
    exact h hw hp hi
  · have hdir := hinv.loopDirection.2 (by rw [hst]; rfl)
    rw [hdir] at hw
    cases hw

theorem State.Of.Served.of_step (h : s.Served) (hidle : s.st ≠ .idle) (hstep : step s = .next t) : t.Served := by
  have hrow := step_row hstep
  exact ⟨invariantKeptByEveryStep s t h.inv hstep, hrow.unlimited h.unlimited, hrow.basesAligned hidle h.aligned,
    hrow.sourceReadable h.inv hidle h.readable⟩

/-! ### The response -/

theorem respond_of_idle_successor : ∀ {q : SeqState}, .idle ∈ q.successors → q ≠ .idle → q = .respond := by
  intro q hq hidle
  cases q with
  | idle => exact absurd rfl hidle
  | respond => rfl
  | _ => simp [SeqState.successors] at hq

/-- The visit that enters IDLE is RESPOND's, and its event is the response (44_transactions.md R207, R208). -/
theorem response_of_idle (hidle : s.st ≠ .idle) (hstep : step s = .next t) (ht : t.st = .idle) :
    ∃ k d p, t.trace.getLast? = some (.rsp k d p) := by
  have hst : s.st = .respond := respond_of_idle_successor (ht ▸ (step_row hstep).successor) hidle
  obtain ⟨-, rfl⟩ := (step_respond hst).mp hstep
  exact ⟨_, _, _, List.getLast?_concat⟩

theorem State.Of.Served.ends (h : s.Served) (hidle : s.st ≠ .idle) :
    ∃ n t, n ≤ s.visitsLeft ∧ Host.Core.run Sys2Proof.core n s = .next t ∧ t.st = .idle ∧
      ∃ k d p, t.trace.getLast? = some (.rsp k d p) := by
  induction hn : s.visitsLeft using Nat.strong_induction_on generalizing s with
  | _ n ih =>
    obtain ⟨t, hstep⟩ := h.goes_on hidle
    have hnear : t.visitsLeft < n := hn ▸ (step_row hstep).nearer h.inv.phase hidle
    by_cases ht : t.st = .idle
    · exact ⟨1, t, by omega, run_succ_of_step hstep 0, ht, response_of_idle hidle hstep ht⟩
    · obtain ⟨m, u, hm, hrun, hu⟩ := ih _ hnear (h.of_step hidle hstep) ht rfl
      exact ⟨m + 1, u, by omega, (run_succ_of_step hstep m).trans hrun, hu⟩

end Progress

/-! ### The obligations about the end of a command -/

/-- Settles O54, row by row. -/
theorem everyVisitBringsTheResponseNearer : Obligations.EveryVisitBringsTheResponseNearer :=
  fun _ _ hinv hidle hstep => (step_row hstep).nearer hinv.phase hidle

/-- Settles O55, by induction on the bound: every visit goes on and brings it down, until the visit that responds. -/
theorem commandEndsWithItsResponse : Obligations.CommandEndsWithItsResponse :=
  fun _ hinv hidle hlimit haligned hsource => State.Of.Served.ends ⟨hinv, hlimit, haligned, hsource⟩ hidle

end Sys2Proof.Machine

/-! ## Whole polls (42_poller.md R170)

One failing sample is one step; `N_POLL - 1` of them keep the poll, by induction, and the next one raises Timeout. -/

namespace Sys2Proof.Machine

section WholePoll

variable {s t : State} {c : Ctlr}

/-- A run goes on from the state that a first part of it reaches. -/
theorem run_add_of_run {k : Nat} (h : Host.Core.run core k s = .next t) (m : Nat) :
    Host.Core.run core (k + m) s = Host.Core.run core m t := by
  induction k generalizing s with
  | zero =>
    obtain rfl : s = t := Host.Outcome.next.inj h
    rw [Nat.zero_add]
  | succ k ih =>
    cases hstep : step s with
    | next u =>
      rw [run_succ_of_step hstep] at h
      rw [Nat.add_right_comm, run_succ_of_step hstep, ih h]
    | fault r | refused r =>
      have hcore : core.step s = _ := hstep
      simp only [Host.Core.run, hcore] at h
      cases h

/-- A poll whose next `n` samples, at least, do not meet its condition. -/
structure State.Of.Failing (s : State) (c : Ctlr) (n : Nat) : Prop where
  entry : s.ct[s.dC.toNat]? = some c
  base : c.ctrlBase.toNat % 4 = 0
  unlimited : s.portLimit = none
  poll : s.st.isPoll = true
  fails : ∀ v ∈ s.regAnswers, s.st.sampleFails v = true
  enough : n ≤ s.regAnswers.length

/-- `s` after the register read of a sample: `snap` is WAITDONE's. -/
def State.Of.sampled (s : State) (a : Addr) (snap : Word) : State := (s.record (.rr a s.answer)).consume.setSnap snap

theorem answer_mem (h : 0 < s.regAnswers.length) : s.answer ∈ s.regAnswers := by
  unfold State.Of.answer
  cases hl : s.regAnswers with
  | nil => rw [hl] at h; exact absurd h (Nat.lt_irrefl 0)
  | cons v rest => exact List.mem_cons_self

/-- What a step makes of a sample that does not meet the condition of its poll (42_poller.md R171 to R174). -/
theorem State.Of.Failing.step_eq {n : Nat} (h : s.Failing c (n + 1)) :
    ∃ a snap, step s = pollMiss s.st (s.sampled a snap) := by
  obtain ⟨hc, hbase, hlimit, hpoll, hfails, henough⟩ := h
  have hfail := hfails _ (answer_mem (Nat.lt_of_lt_of_le n.succ_pos henough))
  have hadm := admits_of_unlimited hlimit 1
  obtain ⟨-, -, hfifo, hint⟩ := fifoBlock_aligned hbase
  obtain hst | hst | hst := isPoll_iff.mp hpoll <;> rw [hst] at hfail ⊢
  · have hbusy : txReady s.answer = false := by simpa [SeqState.sampleFails, txReady] using hfail
    refine ⟨fifoStatusAddr c, s.snap, ?_⟩
    rw [step, fetch, hst]
    exact (exec_waittxWrWait hc hfifo rfl hadm).trans (if_neg (by simp [hbusy]))
  · have hempty : rxReady s.answer = false := by simpa [SeqState.sampleFails, rxReady] using hfail
    refine ⟨fifoStatusAddr c, s.snap, ?_⟩
    rw [step, fetch, hst]
    exact (exec_waitrxRdWait hc hfifo rfl hadm).trans (if_neg (by simp [hempty]))
  · have hnone : (noAck s.answer = false ∧ arbLost s.answer = false) ∧ xferDone s.answer = false := by
      simpa [SeqState.sampleFails] using hfail
    refine ⟨intStatusAddr c, s.answer, ?_⟩
    rw [step, fetch, hst]
    exact (exec_waitdoneDoneWait hc hint rfl hadm).trans (judgeSnapshot_undecided hnone.1.1 hnone.1.2 hnone.2)

/-- A failing sample inside the budget. -/
theorem State.Of.Failing.misses {n : Nat} (h : s.Failing c (n + 1)) (hmore : s.polls.toNat + 1 < Config.params.nPoll) :
    ∃ t, step s = .next t ∧ t.Failing c n ∧ t.st = s.st ∧ t.polls.toNat = s.polls.toNat + 1 ∧
      t.trace.length = s.trace.length + 2 ∧ t.errKind = s.errKind ∧ t.mem = s.mem := by
  obtain ⟨a, snap, hstep⟩ := h.step_eq
  obtain ⟨hc, hbase, hlimit, hpoll, hfails, henough⟩ := h
  have hmiss := (pollMiss_after_sample (s := s) (r := s.sampled a snap) (again := s.st) rfl rfl
    (admits_of_unlimited hlimit 2)).1 hmore
  refine ⟨_, hstep.trans hmiss, ⟨hc, hbase, ?_, hpoll, fun v hv => hfails v (List.mem_of_mem_tail hv), ?_⟩, rfl,
    polls_succ (by omega), ?_, rfl, rfl⟩
  · rw [hlimit, Option.map_none]
  · simp [State.Of.sampled]
    omega
  · simp [State.Of.sampled]

/-- The failing sample that exhausts the budget. -/
theorem State.Of.Failing.expires {n : Nat} (h : s.Failing c (n + 1)) (hlast : s.polls.toNat + 1 = Config.params.nPoll) :
    ∃ t, step s = .next t ∧ t.st = .recReset ∧ t.errKind = .timeout ∧ t.errDetail = 0xFFFFFFFF ∧
      t.trace.length = s.trace.length + 2 ∧ t.mem = s.mem := by
  obtain ⟨a, snap, hstep⟩ := h.step_eq
  have hmiss := (pollMiss_after_sample (s := s) (r := s.sampled a snap) (again := s.st) rfl rfl
    (admits_of_unlimited h.unlimited 2)).2 hlast
  exact ⟨_, hstep.trans hmiss, rfl, rfl, rfl, by simp [State.Of.sampled], rfl⟩

/-- `k` failing samples inside the budget keep the poll. -/
theorem State.Of.Failing.run {k n : Nat} (h : s.Failing c (n + k)) (hmore : s.polls.toNat + k < Config.params.nPoll) :
    ∃ t, Host.Core.run core k s = .next t ∧ t.Failing c n ∧ t.st = s.st ∧ t.polls.toNat = s.polls.toNat + k ∧
      t.trace.length = s.trace.length + 2 * k ∧ t.errKind = s.errKind ∧ t.mem = s.mem := by
  induction k generalizing s with
  | zero => exact ⟨s, rfl, h, rfl, rfl, rfl, rfl, rfl⟩
  | succ k ih =>
    obtain ⟨u, hstep, hu, hst, hpolls, htrace, hkind, hmem⟩ := h.misses (by omega)
    obtain ⟨t, hrun, ht, hst', hpolls', htrace', hkind', hmem'⟩ := ih hu (by omega)
    exact ⟨t, (run_succ_of_step hstep k).trans hrun, ht, hst'.trans hst, by omega, by omega, hkind'.trans hkind,
      hmem'.trans hmem⟩

end WholePoll

/-- Settles O33: the samples inside the budget keep the poll, and the last one finds it with one sample left. -/
theorem pollExpiresAfterItsBudget : Obligations.PollExpiresAfterItsBudget := by
  intro s c hc hbase hlimit hpolls hpoll hfails henough
  have hzero : s.polls.toNat = 0 := by rw [hpolls]; rfl
  have hfailing {n : Nat} (hn : n ≤ Config.params.nPoll) : s.Failing c n :=
    ⟨hc, hbase, hlimit, hpoll, hfails, hn.trans henough⟩
  constructor
  · intro k hk
    obtain ⟨t, hrun, -, hst, hcount, htrace, hkind, -⟩ := (hfailing (n := 0 + k) (by omega)).run (by omega)
    exact ⟨t, hrun, hst, by omega, htrace, hkind⟩
  · have hsplit : Config.params.nPoll = 1000 + 1 := rfl
    obtain ⟨t, hrun, ht, -, hcount, htrace, -, hmem⟩ := (hfailing (n := 1 + 1000) (by omega)).run (by omega)
    obtain ⟨u, hstep, hst, hkind, hdetail, htrace', hmem'⟩ := ht.expires (n := 0) (by omega)
    refine ⟨u, ?_, hst, hkind, hdetail, by omega, hmem'.trans hmem⟩
    rw [hsplit, run_add_of_run hrun]
    exact run_succ_of_step hstep 0

end Sys2Proof.Machine

/-! ## Whole loops (41_word_mover.md R151, R157, R162)

A word of a loop is three visits. Both loops go by induction on the words left, one lemma for the three visits of a word
and one for what a word adds to the bytes moved so far. -/

namespace Sys2Proof.Machine

section Loops

variable {s t : State} {c : Ctlr}

/-! ### Bytes of a list of words -/

/-- The first `n` bytes of the words `ws` stand in `m` from `a` on, little-endian. -/
def Carries (m : List Host.Cell) (a : Addr) (ws : List Word) (n : Nat) : Prop :=
  ∀ k w, ws[k]? = some w → ∀ j < 4, 4 * k + j < n →
    memGet m (a + BitVec.ofNat Config.params.addrW (4 * k + j)).toNat = some (byteOf w j)

/-- `m` and `m'` agree but for the `n` bytes from `a` on. -/
def AgreeBut (m m' : List Host.Cell) (a : Addr) (n : Nat) : Prop :=
  ∀ x, (∀ k < n, x ≠ (a + BitVec.ofNat Config.params.addrW k).toNat) → memGet m' x = memGet m x

/-- The address `k` bytes after the next word. -/
theorem addr_next_word (a : Addr) (k : Nat) :
    a + 4 + BitVec.ofNat Config.params.addrW k = a + BitVec.ofNat Config.params.addrW (4 + k) := by
  rw [BitVec.ofNat_add, ← BitVec.add_assoc]
  rfl

theorem addr_ne {a : Addr} {j k : Nat} (hjk : j < k) (hk : k < 2 ^ 32) :
    (a + BitVec.ofNat Config.params.addrW j).toNat ≠ (a + BitVec.ofNat Config.params.addrW k).toNat := by
  simp only [BitVec.toNat_add, BitVec.toNat_ofNat, Config.params_addrW]
  omega

theorem Carries.nil {m : List Host.Cell} {a : Addr} {n : Nat} : Carries m a [] n := fun _ _ hw => by cases hw

/-- A word in front: its own bytes, and only of the last word less than all four. -/
theorem Carries.cons {m : List Host.Cell} {a : Addr} {w : Word} {ws : List Word} {n0 n : Nat}
    (hw : ∀ j < n0, memGet m (a + BitVec.ofNat Config.params.addrW j).toNat = some (byteOf w j)) (hn0 : n0 ≤ 4)
    (hfull : n0 = 4 ∨ n = 0) (h : Carries m (a + 4) ws n) : Carries m a (w :: ws) (n0 + n) := by
  intro k v hv j hj hn
  cases k with
  | zero =>
    obtain rfl : w = v := by simpa using hv
    rw [Nat.mul_zero, Nat.zero_add]
    exact hw j (by omega)
  | succ k =>
    rw [Nat.mul_succ, Nat.add_comm _ 4, Nat.add_assoc, ← addr_next_word]
    exact h k v (by simpa using hv) j hj (by omega)

theorem AgreeBut.cons {m m' : List Host.Cell} {a : Addr} {w : Word} {n0 n : Nat} (hfull : n0 = 4 ∨ n = 0)
    (h : AgreeBut (memPutBytes m a w n0) m' (a + 4) n) : AgreeBut m m' a (n0 + n) := by
  intro x hx
  rw [h x fun k hk => by rw [addr_next_word]; exact hx _ (by omega)]
  exact memGet_memPutBytes_other _ _ _ _ _ fun j hj => hx j (by omega)

/-- The bytes of a stored word are still there when later words have been stored behind it. -/
theorem AgreeBut.keeps_word {m m' : List Host.Cell} {a : Addr} {w : Word} {n0 n j : Nat}
    (h : AgreeBut (memPutBytes m a w n0) m' (a + 4) n) (hn0 : n0 ≤ 4) (hn : 4 + n ≤ 2 ^ 32) (hj : j < n0) :
    memGet m' (a + BitVec.ofNat Config.params.addrW j).toNat = some (byteOf w j) := by
  rw [h _ fun k hk => by rw [addr_next_word]; exact addr_ne (by omega) (by omega)]
  exact memGet_memPutBytes_same _ _ _ _ _ hj hn0

theorem bytesLeft_zero (rem : BitVec 2) : bytesLeft 0 rem = 0 := by
  unfold bytesLeft
  split <;> omega

theorem bytesLeft_le (n : Nat) (rem : BitVec 2) : bytesLeft n rem ≤ 4 * n := by
  unfold bytesLeft
  split <;> omega

/-- The payload bytes of the next word and those after it (41_word_mover.md R154, R162). -/
theorem bytesLeft_eq (h0 : s.words ≠ 0) :
    bytesLeft s.words.toNat s.rem = storeBytes s + bytesLeft (s.words - 1).toNat s.rem ∧
      (storeBytes s = 4 ∨ bytesLeft (s.words - 1).toNat s.rem = 0) := by
  have hpos : s.words.toNat ≠ 0 := fun h => h0 (BitVec.eq_of_toNat_eq h)
  have hone : s.words = 1 ↔ s.words.toNat = 1 := ⟨fun h => by rw [h]; rfl, fun h => BitVec.eq_of_toNat_eq h⟩
  have hrem := s.rem.isLt
  rw [words_pred h0, storeBytes_eq]
  unfold bytesLeft
  by_cases hr : s.rem = 0
  · simp only [hr, ne_eq, not_true_eq_false, and_false, if_false, if_true, true_or, and_true]
    omega
  · simp only [hr, hone, ne_eq, not_false_eq_true, and_true, if_false]
    split
    · exact ⟨by omega, .inr (by omega)⟩
    · exact ⟨by omega, .inl rfl⟩

/-! ### A word of the read loop -/

/-- The registers of the entry can be accessed, and every port event is completed. -/
structure State.Of.Accessible (s : State) (c : Ctlr) : Prop where
  entry : s.ct[s.dC.toNat]? = some c
  base : c.ctrlBase.toNat % 4 = 0
  unlimited : s.portLimit = none

theorem answer_of_cons {v : Word} {rest : List Word} (h : s.regAnswers = v :: rest) : s.answer = v := by
  rw [State.Of.answer, h, List.headD_cons]

theorem step_rdWait_ready {v : Word} {rest : List Word} (h : s.Accessible c) (hst : s.st = .rdWait)
    (hans : s.regAnswers = v :: rest) (hready : rxReady v = true) :
    step s = .next { s with
      st := .rdPop, trace := s.trace ++ [.rr (fifoStatusAddr c) v], portLimit := none, regAnswers := rest
      draws := s.draws + 1 } := by
  obtain ⟨hc, hbase, hlimit⟩ := h
  obtain ⟨-, -, hfifo, -⟩ := fifoBlock_aligned hbase
  refine (step_rdWait hst).mpr ⟨c, hc, hfifo, admits_of_unlimited hlimit 1, ?_⟩
  rw [answer_of_cons hans, if_pos hready]
  simp [State.Of.record, State.Of.consume, State.Of.goto, hans, hlimit]

theorem step_rdPop_answer {w : Word} {rest : List Word} (h : s.Accessible c) (hst : s.st = .rdPop)
    (hans : s.regAnswers = w :: rest) :
    step s = .next { s with
      st := .rdStore, stage := w, trace := s.trace ++ [.rr (rxFifoAddr c) w], portLimit := none, regAnswers := rest
      draws := s.draws + 1 } := by
  obtain ⟨hc, hbase, hlimit⟩ := h
  obtain ⟨-, hrx, -, -⟩ := fifoBlock_aligned hbase
  refine (step_rdPop hst).mpr ⟨c, hc, hrx, admits_of_unlimited hlimit 1, ?_⟩
  rw [answer_of_cons hans]
  simp [State.Of.record, State.Of.consume, State.Of.goto, State.Of.setStage, hans, hlimit]

theorem step_rdStore_unlimited (hlimit : s.portLimit = none) (hst : s.st = .rdStore) (h0 : s.words ≠ 0) :
    ∃ tr, step s = .next { s with
      trace := tr, mem := memPutBytes s.mem s.ptr s.stage (storeBytes s), words := s.words - 1, ptr := s.ptr + 4
      polls := 0, st := if s.words = 1 then .doneWait else .rdWait } := by
  obtain ⟨n, es, hstore⟩ := storeWord_unlimited hlimit
  have hstep := (step_rdStore hst).trans (execPopwRdStore_of_stored h0 hstore)
  obtain ⟨-, es, limit, heq, -⟩ := execPopwRdStore_next ((step_rdStore hst).symm.trans hstep)
  have hleft := execPopwRdStore_unlimited hlimit ((step_rdStore hst).symm.trans hstep)
  rw [heq] at hstep hleft
  obtain rfl : limit = none := hleft
  exact ⟨_, by rw [hstep, hlimit]⟩

/-- The three visits of a word of the read loop: a ready sample, the pop and the store (41_word_mover.md R156, R157). -/
theorem read_word {v w : Word} {rest : List Word} (h : s.Accessible c) (hst : s.st = .rdWait) (h0 : s.words ≠ 0)
    (hans : s.regAnswers = v :: w :: rest) (hready : rxReady v = true) :
    ∃ t, Host.Core.run core 3 s = .next t ∧ t.Accessible c ∧ t.st = (if s.words = 1 then .doneWait else .rdWait) ∧
      t.words = s.words - 1 ∧ t.rem = s.rem ∧ t.ptr = s.ptr + 4 ∧ t.regAnswers = rest ∧
      t.mem = memPutBytes s.mem s.ptr w (storeBytes s) := by
  have hsample := step_rdWait_ready h hst hans hready
  have hpop := step_rdPop_answer (s := { s with
      st := .rdPop, trace := s.trace ++ [.rr (fifoStatusAddr c) v], portLimit := none, regAnswers := w :: rest
      draws := s.draws + 1 }) ⟨h.entry, h.base, rfl⟩ rfl rfl
  obtain ⟨tr, hstore⟩ := step_rdStore_unlimited (s := { s with
      st := .rdStore, stage := w, trace := s.trace ++ [.rr (fifoStatusAddr c) v] ++ [.rr (rxFifoAddr c) w]
      portLimit := none, regAnswers := rest, draws := s.draws + 1 + 1 }) rfl rfl h0
  refine ⟨_, (run_succ_of_step hsample 2).trans ((run_succ_of_step hpop 1).trans (run_succ_of_step hstore 0)), ?_⟩
  exact ⟨⟨h.entry, h.base, rfl⟩, rfl, rfl, rfl, rfl, rfl, rfl⟩

/-- The words of a script of ready samples and popped words are stored one behind the other. -/
theorem read_loop {ps : List (Word × Word)} {rest : List Word} (h : s.Accessible c)
    (hst : s.st = if s.words = 0 then .doneWait else .rdWait) (hlen : ps.length = s.words.toNat)
    (hready : ∀ p ∈ ps, rxReady p.1 = true) (hans : s.regAnswers = ps.flatMap (fun p => [p.1, p.2]) ++ rest) :
    ∃ t, Host.Core.run core (3 * ps.length) s = .next t ∧ t.st = .doneWait ∧ t.words = 0 ∧ t.regAnswers = rest ∧
      Carries t.mem s.ptr (ps.map Prod.snd) (bytesLeft s.words.toNat s.rem) ∧
      AgreeBut s.mem t.mem s.ptr (bytesLeft s.words.toNat s.rem) := by
  induction ps generalizing s with
  | nil =>
    have h0 : s.words = 0 := BitVec.eq_of_toNat_eq hlen.symm
    rw [if_pos h0] at hst
    exact ⟨s, rfl, hst, h0, hans, Carries.nil, fun _ _ => rfl⟩
  | cons p ps ih =>
    obtain ⟨v, w⟩ := p
    rw [List.length_cons] at hlen
    have h0 : s.words ≠ 0 := fun h0 => by rw [h0] at hlen; exact absurd hlen (Nat.succ_ne_zero _)
    rw [if_neg h0] at hst
    obtain ⟨u, hrun, hu, hust, huwords, hurem, huptr, huans, humem⟩ :=
      read_word h hst h0 hans (hready _ List.mem_cons_self)
    have hpred := words_pred h0
    obtain ⟨t, hrun', htst, htwords, htans, hbytes, hframe⟩ := ih hu
      (by simp only [hust, huwords, sub_eq_zero]) (by rw [huwords]; omega)
      (fun p hp => hready p (List.mem_cons_of_mem _ hp)) huans
    obtain ⟨hsum, hfull⟩ := bytesLeft_eq h0
    have hle := bytesLeft_le (s.words - 1).toNat s.rem
    have hwords := (s.words - 1).isLt
    rw [huwords, hurem, huptr] at hbytes hframe
    rw [humem] at hframe
    refine ⟨t, ?_, htst, htwords, htans, ?_, ?_⟩
    · rw [List.length_cons, Nat.mul_succ, Nat.add_comm, run_add_of_run hrun, hrun']
    · rw [hsum]
      exact hbytes.cons (fun j hj => hframe.keeps_word (storeBytes_le s) (by omega) hj) (storeBytes_le s) hfull
    · rw [hsum]
      exact hframe.cons hfull

/-! ### A word of the write loop -/

theorem written_byteReads (a : Addr) (b : Addr) (w : Word) : (byteReads a w).filterMap (Event.Of.written b) = [] := rfl

/-- A fetch of a readable word stages its payload bytes, and nothing is written (41_word_mover.md R152 to R154). -/
theorem step_wrFetch_unlimited {w : Word} (b : Addr) (hlimit : s.portLimit = none) (hst : s.st = .wrFetch)
    (hp : s.dProbe = false) (hw : memWord s.mem s.ptr = some w) :
    ∃ es g d, step s = .next { s with
        st := .wrPush, trace := s.trace ++ es, portLimit := none, stage := g, draws := d } ∧
      es.filterMap (Event.Of.written b) = [] ∧
      ∀ j < storeBytes s, memGet s.mem (s.ptr + BitVec.ofNat Config.params.addrW j).toNat = some (byteOf g j) := by
  have hadm := admits_of_unlimited hlimit
  have hfetch : ∃ es, fetchWord s = .next (w, s.fetched es) ∧ es.filterMap (Event.Of.written b) = [] := by
    by_cases ha : s.ptr.toNat % 4 = 0
    · exact ⟨_, fetchWord_aligned hp ha (hadm 1) hw, rfl⟩
    · exact ⟨_, fetchWord_unaligned hp ha (hadm 4) hw, written_byteReads _ _ _⟩
  obtain ⟨es, hfetch, hes⟩ := hfetch
  obtain ⟨t, hstep, ht, -⟩ := exec_pushwWrFetch_fetched hfetch
  refine ⟨es, t.stage, t.draws, ?_, hes, fun j hj => exec_pushwWrFetch_payload hp hstep hj⟩
  rw [step_wrFetch hst]
  rw [hlimit] at ht
  exact hstep.trans (congrArg _ ht)

theorem step_wrPush_unlimited (h : s.Accessible c) (hst : s.st = .wrPush) :
    step s = .next { s with
      st := .wrWait, polls := 0, trace := s.trace ++ [.rw (txFifoAddr c) s.stage], portLimit := none } := by
  obtain ⟨hc, hbase, hlimit⟩ := h
  obtain ⟨htx, -, -, -⟩ := fifoBlock_aligned hbase
  refine (step_wrPush hst).mpr ⟨c, hc, htx, admits_of_unlimited hlimit 1, ?_⟩
  simp [State.Of.record, State.Of.goto, State.Of.setPolls, hlimit]

theorem step_wrWait_ready {v : Word} {rest : List Word} (h : s.Accessible c) (hst : s.st = .wrWait) (h0 : s.words ≠ 0)
    (hans : s.regAnswers = v :: rest) (hready : txReady v = true) :
    ∃ p, step s = .next { s with
      st := if s.words = 1 then .doneWait else .wrFetch, words := s.words - 1, ptr := s.ptr + 4, polls := p
      trace := s.trace ++ [.rr (fifoStatusAddr c) v], portLimit := none, regAnswers := rest
      draws := s.draws + 1 } := by
  obtain ⟨hc, hbase, hlimit⟩ := h
  obtain ⟨-, -, hfifo, -⟩ := fifoBlock_aligned hbase
  refine ⟨if s.words = 1 then 0 else s.polls, (step_wrWait hst).mpr ⟨c, hc, hfifo, admits_of_unlimited hlimit 1, ?_⟩⟩
  rw [answer_of_cons hans, if_pos hready]
  refine advanceWord_eq_next.mpr ⟨h0, ?_⟩
  by_cases h1 : s.words = 1 <;>
    simp only [State.Of.record, State.Of.consume, State.Of.goto, State.Of.setPolls, State.Of.setCursor, hans, hlimit,
      h1, if_true, if_false, Bool.false_eq_true, Option.map_none, List.tail_cons]

/-- The three visits of a word of the write loop: the fetch, the push and a ready sample (41_word_mover.md R155). -/
theorem write_word {v w : Word} {rest : List Word} (h : s.Accessible c) (hst : s.st = .wrFetch) (h0 : s.words ≠ 0)
    (hp : s.dProbe = false) (hw : memWord s.mem s.ptr = some w) (hans : s.regAnswers = v :: rest)
    (hready : txReady v = true) :
    ∃ t es g, Host.Core.run core 3 s = .next t ∧ t.Accessible c ∧
      t.st = (if s.words = 1 then .doneWait else .wrFetch) ∧
      t.words = s.words - 1 ∧ t.rem = s.rem ∧ t.ptr = s.ptr + 4 ∧ t.dProbe = s.dProbe ∧ t.regAnswers = rest ∧
      t.mem = s.mem ∧ t.trace = s.trace ++ es ∧ es.filterMap (Event.Of.written (txFifoAddr c)) = [g] ∧
      ∀ j < storeBytes s, memGet s.mem (s.ptr + BitVec.ofNat Config.params.addrW j).toNat = some (byteOf g j) := by
  obtain ⟨es, g, d, hfetch, hes, hbytes⟩ := step_wrFetch_unlimited (txFifoAddr c) h.unlimited hst hp hw
  have hpush := step_wrPush_unlimited (s := { s with
    st := .wrPush, trace := s.trace ++ es, portLimit := none, stage := g, draws := d }) ⟨h.entry, h.base, rfl⟩ rfl
  obtain ⟨p, hsample⟩ := step_wrWait_ready (s := { s with
    st := .wrWait, polls := 0, trace := s.trace ++ es ++ [.rw (txFifoAddr c) g], portLimit := none, stage := g
    draws := d }) ⟨h.entry, h.base, rfl⟩ rfl h0 hans hready
  refine ⟨_, es ++ [.rw (txFifoAddr c) g] ++ [.rr (fifoStatusAddr c) v], g,
    (run_succ_of_step hfetch 2).trans ((run_succ_of_step hpush 1).trans (run_succ_of_step hsample 0)), ?_⟩
  refine ⟨⟨h.entry, h.base, rfl⟩, rfl, rfl, rfl, rfl, rfl, rfl, rfl, ?_, ?_, hbytes⟩
  · simp only [List.append_assoc]
  · simp [hes, Event.Of.written]

/-- The words of the source are pushed one behind the other, a script of ready samples provided. -/
theorem write_loop {vs rest : List Word} (h : s.Accessible c) (hst : s.st = if s.words = 0 then .doneWait else .wrFetch)
    (hp : s.dProbe = false) (hlen : vs.length = s.words.toNat) (hready : ∀ v ∈ vs, txReady v = true)
    (hsource : ∀ k < 4 * s.words.toNat, (memGet s.mem (s.ptr + BitVec.ofNat Config.params.addrW k).toNat).isSome = true)
    (hans : s.regAnswers = vs ++ rest) :
    ∃ t es, Host.Core.run core (3 * vs.length) s = .next t ∧ t.st = .doneWait ∧ t.words = 0 ∧ t.regAnswers = rest ∧
      t.mem = s.mem ∧ t.trace = s.trace ++ es ∧
      (es.filterMap (Event.Of.written (txFifoAddr c))).length = s.words.toNat ∧
      Carries s.mem s.ptr (es.filterMap (Event.Of.written (txFifoAddr c))) (bytesLeft s.words.toNat s.rem) := by
  induction vs generalizing s with
  | nil =>
    have h0 : s.words = 0 := BitVec.eq_of_toNat_eq hlen.symm
    rw [if_pos h0] at hst
    exact ⟨s, [], rfl, hst, h0, hans, rfl, (List.append_nil _).symm, hlen, Carries.nil⟩
  | cons v vs ih =>
    rw [List.length_cons] at hlen
    have h0 : s.words ≠ 0 := fun h0 => by rw [h0] at hlen; exact absurd hlen (Nat.succ_ne_zero _)
    have hpred := words_pred h0
    rw [if_neg h0] at hst
    obtain ⟨w, hw⟩ := Option.isSome_iff_exists.mp (memWord_isSome (a := s.ptr) fun j hj => hsource j (by omega))
    obtain ⟨u, es, g, hrun, hu, hust, huwords, hurem, huptr, huprobe, huans, humem, hutrace, hpush, hbytes⟩ :=
      write_word h hst h0 hp hw hans (hready _ List.mem_cons_self)
    have husource : ∀ k < 4 * u.words.toNat,
        (memGet u.mem (u.ptr + BitVec.ofNat Config.params.addrW k).toNat).isSome = true := by
      intro k hk
      rw [huwords] at hk
      rw [humem, huptr, addr_next_word]
      exact hsource _ (by omega)
    obtain ⟨t, es', hrun', htst, htwords, htans, htmem, httrace, hcount, hcarries⟩ := ih hu
      (by simp only [hust, huwords, sub_eq_zero]) (huprobe.trans hp) (by rw [huwords]; omega)
      (fun v hv => hready v (List.mem_cons_of_mem _ hv)) husource huans
    obtain ⟨hsum, hfull⟩ := bytesLeft_eq h0
    rw [huwords, hurem, huptr, humem] at hcarries
    refine ⟨t, es ++ es', ?_, htst, htwords, htans, htmem.trans humem, ?_, ?_, ?_⟩
    · rw [List.length_cons, Nat.mul_succ, Nat.add_comm, run_add_of_run hrun, hrun']
    · rw [httrace, hutrace, List.append_assoc]
    · rw [List.filterMap_append, hpush, List.singleton_append, List.length_cons, hcount, huwords]
      omega
    · rw [List.filterMap_append, hpush, List.singleton_append, hsum]
      exact hcarries.cons hbytes (storeBytes_le s) hfull

end Loops

/-! ### The obligations about whole loops -/

/-- Settles O34, by induction on the words left. -/
theorem readLoopStoresThePayload : Obligations.ReadLoopStoresThePayload := by
  intro s c ps rest hst hc hbase hlimit h0 hlen hready hans
  obtain ⟨t, hrun, htst, htwords, htans, hbytes, hframe⟩ :=
    read_loop ⟨hc, hbase, hlimit⟩ (by rw [if_neg h0, hst]) hlen hready hans
  rw [← hlen] at hbytes hframe
  refine ⟨t, hrun, htst, htwords, htans, fun k p hp => hbytes k p.2 ?_, hframe⟩
  rw [List.getElem?_map, hp, Option.map_some]

/-- Settles O35, by induction on the words left. -/
theorem writeLoopPushesThePayload : Obligations.WriteLoopPushesThePayload := by
  intro s c vs rest hst hc hbase hlimit hp h0 hlen hready hsource hans
  exact write_loop ⟨hc, hbase, hlimit⟩ (by rw [if_neg h0, hst]) hp hlen hready hsource hans

end Sys2Proof.Machine

/-! ## IDLE and the host (10_state.md R25; 30_encoding.md R102; 44_transactions.md R200, R211, R212) -/

namespace Sys2Proof.Machine

section HostSide

variable {s : State}

theorem addr8Of_eq_append (addr7 : BitVec 7) (read : Bool) : addr8Of addr7 read = addr7 ++ BitVec.ofBool read := by
  apply BitVec.eq_of_toNat_eq
  have hlt : read.toNat < 2 ^ 1 := read.toNat_lt
  rw [addr8Of_toNat, BitVec.toNat_append, BitVec.toNat_ofBool, ← Nat.shiftLeft_add_eq_or_of_lt hlt, Nat.shiftLeft_eq]
  omega

theorem lengthInDomain_of_bounds {len : BitVec 13} (h1 : 1 ≤ len.toNat) (hmax : len.toNat ≤ Config.params.lenMax) :
    lengthInDomain len = true := by
  rw [lengthInDomain, decide_eq_true h1, decide_eq_true hmax]
  rfl

/-- The words of a command run the command they decode to (30_encoding.md R102, R103). -/
theorem commandWords_decoded {c0 : Word} {f : CommandFields} (h : decodeCmd0 c0 = .ok f) (c1 : Addr) (s : State) :
    commandWords c0 c1 s = exec (f.instr c1) s := by
  obtain ⟨op, ctlr, ten, len, addr7⟩ := f
  rw [commandWords, h]
  cases op <;> rfl

theorem accept_busy (hst : s.st ≠ .idle) (d : Descriptor) : accept d s = .refused .busy := if_neg hst

theorem acceptPayload_busy (hst : s.st ≠ .idle) (d : Descriptor) : acceptPayload d s = .refused .busy := if_neg hst

theorem cfgWrite_busy (hst : s.st ≠ .idle) (index : Nat) (r : CfgRecord) : cfgWrite index r s = .refused .busy :=
  if_neg hst

theorem cfgWrite_entry {index : Nat} {r : CfgRecord} {old : Ctlr} (hst : s.st = .idle) (hold : s.ct[index]? = some old)
    (hid : r.id.toNat = index) :
    cfgWrite index r s = .next (s.setTable (s.ct.setIfInBounds index (configured old r))) := by
  simp only [cfgWrite, hst, hold, hid, if_true]

theorem cfgWrite_badId {index : Nat} {r : CfgRecord} (hst : s.st = .idle) (hindex : index < Config.params.nCtlr)
    (hid : r.id.toNat ≠ index) : cfgWrite index r s = .refused .cfgId := by
  simp only [cfgWrite, hst, Vector.getElem?_eq_getElem hindex, hid, if_true, if_false]

theorem cfgWrite_badIndex {index : Nat} {r : CfgRecord} (hst : s.st = .idle) (hindex : Config.params.nCtlr ≤ index) :
    cfgWrite index r s = .refused .cfgIndex := by
  simp only [cfgWrite, hst, Vector.getElem?_eq_none hindex, if_true]

end HostSide

/-- Settles O10: IDLE takes the command's words, which decode to a WRITE. -/
theorem idleWaitsOrAccepts : Obligations.IdleWaitsOrAccepts := by
  intro s
  constructor
  · intro hhost
    rw [exec, execSeqIdle, hhost]
  · intro ctlr ten len addr7 buf rest hst hlen hhost
    have hdecode := decodeCmd0_word ⟨.write, ctlr, ten, len, addr7⟩
    rw [exec, execSeqIdle, hhost]
    have haccept := exec_write_accepted (s := s.setHostIn rest) hst ctlr ten addr7 buf hlen
    refine (commandWords_decoded hdecode buf _).trans (haccept.trans ?_)
    rw [writeDescriptor, addr8Of_eq_append]
    rfl

/-- Settles O11: what each command latches, its address with the direction bit appended. -/
theorem acceptanceLatchesTheDescriptor : Obligations.AcceptanceLatchesTheDescriptor := by
  intro s ctlr ten len addr7 buf hst
  have hwrite : addr8Of addr7 false = addr7 ++ 0#1 := addr8Of_eq_append addr7 false
  have hread : addr8Of addr7 true = addr7 ++ 1#1 := addr8Of_eq_append addr7 true
  refine ⟨?_, fun h1 hmax => ?_, fun h1 hmax => ?_, ?_⟩
  · refine (accept_eq_next.mpr ⟨hst, rfl⟩ : exec (.init ctlr ten len addr7 buf) s = _).trans ?_
    rw [initDescriptor, hwrite]
    rfl
  · rw [exec_write_accepted hst ctlr ten addr7 buf (lengthInDomain_of_bounds h1 hmax), writeDescriptor, hwrite]
    rfl
  · rw [exec_read_accepted hst ctlr ten addr7 buf (lengthInDomain_of_bounds h1 hmax), readDescriptor, hread]
    rfl
  · rw [exec_probe_accepted hst ctlr ten addr7 buf, probeDescriptor, hwrite]
    rfl

/-- Settles O12: acceptance and a configuration write test `st` first. -/
theorem busyCoreRefusesTheHost : Obligations.BusyCoreRefusesTheHost :=
  fun _ _ _ _ _ _ index r hst => ⟨accept_busy hst _, acceptPayload_busy hst _, acceptPayload_busy hst _,
    accept_busy hst _, cfgWrite_busy hst index r⟩

/-- Settles O14: the entry is replaced by the one configured, which keeps `inited`. -/
theorem cfgWriteWritesItsEntry : Obligations.CfgWriteWritesItsEntry := by
  intro s index r old hst hold hid
  obtain ⟨hindex, -⟩ := Vector.getElem?_eq_some_iff.mp hold
  refine ⟨_, cfgWrite_entry hst hold hid, rfl, ?_, fun j hj => ?_⟩
  · rw [State.Of.setTable_ct, Vector.getElem?_setIfInBounds, if_pos rfl, if_pos hindex]
    rfl
  · rw [State.Of.setTable_ct, Vector.getElem?_setIfInBounds, if_neg hj.symm]

/-- Settles O15: the table is looked up first, then the id is compared. -/
theorem badCfgWritesRefused : Obligations.BadCfgWritesRefused :=
  fun _ _ _ hst => ⟨cfgWrite_badIndex hst, cfgWrite_badId hst⟩

/-- Settles O8: the words presented run the command they decode to, and a state code decodes to its micro-operation. -/
theorem stepRunsTheDecodedInstruction : Obligations.StepRunsTheDecodedInstruction := by
  intro s
  refine ⟨fun c0 c1 rest i hst hhost hdecode => ?_, fun index r rest hst hhost => ?_, fun i hdecode => ?_⟩
  · rw [step_command hst hhost]
    cases hfields : decodeCmd0 c0 with
    | ok f =>
      have hinstr : decode .cmd [c0, c1] = .ok (f.instr c1) := by rw [decode, decodeCommand, hfields]
      obtain rfl : f.instr c1 = i := Except.ok.inj (hinstr.symm.trans hdecode)
      exact commandWords_decoded hfields c1 _
    | error e => rw [decode, decodeCommand, hfields] at hdecode; cases hdecode
  · rw [step_idle hst, execSeqIdle, hhost]
    rfl
  · have hformat : s.st.instr.format = .useq := by cases s.st <;> rfl
    have hround := decodingInvertsEncoding s.st.instr
    rw [hformat, hdecode] at hround
    cases hround
    rfl

end Sys2Proof.Machine

/-! ## Single visits (40_header_encoder.md R140; 41_word_mover.md R152, R156; 44_transactions.md R206, R208) -/

namespace Sys2Proof.Machine

section Visits

variable {s : State} {c : Ctlr}

/-! ### The register visits where they go on -/

section Completed

variable (hc : s.ct[s.dC.toNat]? = some c) (ha : c.ctrlBase.toNat % 4 = 0) (hadm : s.admits 1 = true)

include hc ha hadm

theorem pushVisit_admitted (w : Word) (g : State → State) :
    (andThen (pushTx w s) fun u => .next (g u)) = .next (g (s.record (.rw (txFifoAddr c) w))) :=
  pushVisit_next.mpr ⟨c, hc, (fifoBlock_aligned ha).1, hadm, rfl⟩

theorem execHdrHdr2_admitted :
    execHdrHdr2 s = .next (((if s.dLen = 0 then s.drawn else s).record
      (.rw (txFifoAddr c) (hdr2Word (sizeField s.dLen s.pad)))).goto .hdr3) := by
  unfold execHdrHdr2
  split
  · exact pushVisit_admitted (s := s.drawn) hc ha hadm _ _
  · exact pushVisit_admitted hc ha hadm _ _

end Completed

/-! ### The visits refused or stopped -/

/-- A register stands at a multiple of 4 above its base (20_memory.md Table 20-1). -/
theorem aligned4_add_eq_false {a off : Addr} (ha : a.toNat % 4 ≠ 0) (hoff : off.toNat % 4 = 0) :
    aligned4 (a + off) = false := by
  have hmod : (2 : Nat) ^ Config.params.addrW = 4294967296 := rfl
  rw [aligned4, decide_eq_false_iff_not, BitVec.toNat_add, hmod]
  omega

theorem regRead_misaligned {a : Addr} (ha : aligned4 a = false) : regRead a s = .refused .misalignedRegister :=
  if_neg (by rw [ha]; exact Bool.false_ne_true)

theorem regWrite_misaligned {a : Addr} {v : Word} (ha : aligned4 a = false) :
    regWrite a v s = .refused .misalignedRegister := if_neg (by rw [ha]; exact Bool.false_ne_true)

theorem readVisit_misaligned {f : Ctlr → Addr} {g : Word × State → Result State} (hc : s.ct[s.dC.toNat]? = some c)
    (ha : aligned4 (f c) = false) :
    (withCtlr s fun c => andThen (regRead (f c) s) g) = .refused .misalignedRegister := by
  rw [withCtlr_of hc, regRead_misaligned ha, andThen_refused]

theorem writeVisit_misaligned {f : Ctlr → Addr} {v : Word} {g : Ctlr → State → Result State}
    (hc : s.ct[s.dC.toNat]? = some c) (ha : aligned4 (f c) = false) :
    (withCtlr s fun c => andThen (regWrite (f c) v s) (g c)) = .refused .misalignedRegister := by
  rw [withCtlr_of hc, regWrite_misaligned ha, andThen_refused]

theorem pushVisit_misaligned {w : Word} {g : State → Result State} (hc : s.ct[s.dC.toNat]? = some c)
    (ha : aligned4 (txFifoAddr c) = false) : andThen (pushTx w s) g = .refused .misalignedRegister := by
  rw [pushTx, withCtlr_of hc, regWrite_misaligned ha, andThen_refused]

theorem execHdrHdr2_misaligned (hc : s.ct[s.dC.toNat]? = some c) (ha : aligned4 (txFifoAddr c) = false) :
    execHdrHdr2 s = .refused .misalignedRegister := by
  unfold execHdrHdr2
  split
  · exact pushVisit_misaligned (s := s.drawn) hc ha
  · exact pushVisit_misaligned hc ha

theorem withCtlr_none {α : Type} {f : Ctlr → Result α} (hc : s.ct[s.dC.toNat]? = none) :
    withCtlr s f = .fault .noController := by
  rw [withCtlr, hc]

theorem pushVisit_none {w : Word} {g : State → Result State} (hc : s.ct[s.dC.toNat]? = none) :
    andThen (pushTx w s) g = .fault .noController := by
  rw [pushTx, withCtlr_none hc, andThen_fault]

theorem execHdrHdr2_none (hc : s.ct[s.dC.toNat]? = none) : execHdrHdr2 s = .fault .noController := by
  unfold execHdrHdr2
  split
  · exact pushVisit_none (s := s.drawn) hc
  · exact pushVisit_none hc

theorem advanceWord_none {read : Bool} (h0 : s.words = 0) : advanceWord read s = .fault .noTransition := if_pos h0

end Visits

/-! ### The obligations about single visits -/

/-- Settles O17: CLR_RD's read and CLR_WR's write of what was read. -/
theorem clrstReadsAndWritesBack : Obligations.ClrstReadsAndWritesBack := by
  intro s c hc hbase hadm
  obtain ⟨-, -, -, hint⟩ := fifoBlock_aligned hbase
  exact ⟨readVisit_admitted hc hint hadm, writeVisit_next.mpr ⟨c, hc, hint, hadm, rfl⟩⟩

/-- Settles O18: each visit pushes its word; a length of 0 draws the size of HDR2. -/
theorem headerStatesEmitTheirWords : Obligations.HeaderStatesEmitTheirWords := by
  intro s c hc hbase hadm
  refine ⟨(withCtlr_of hc).trans (pushVisit_admitted hc hbase hadm _ _), fun hlen => ?_,
    fun hlen => ⟨sizeField s.dLen s.pad, ?_⟩, ?_⟩
  · refine (execHdrHdr2_admitted hc hbase hadm).trans ?_
    rw [if_neg hlen, sizeField_of_ne_zero hlen]
    rfl
  · refine (execHdrHdr2_admitted hc hbase hadm).trans ?_
    rw [if_pos hlen]
    rfl
  · refine (pushVisit_admitted hc hbase hadm _ _).trans ?_
    rw [enterLoop_eq, ofNat_two_mod_four]
    rfl

/-- Settles O25: one push, and the poll's count starts at 0. -/
theorem pushWritesTheStagingWord : Obligations.PushWritesTheStagingWord :=
  fun _ _ hc hbase hadm => pushVisit_admitted hc hbase hadm _ _

/-- Settles O26: one read. -/
theorem popReadsOneWord : Obligations.PopReadsOneWord := by
  intro s c hc hbase hadm
  obtain ⟨-, hrx, -, -⟩ := fifoBlock_aligned hbase
  exact readVisit_admitted hc hrx hadm

/-- Settles O38: the response of the latch. -/
theorem respondDeliversTheLatch : Obligations.RespondDeliversTheLatch :=
  fun _ hadm => respond_eq_next.mpr ⟨hadm, rfl⟩

/-- Settles O39: each row responds with its own kind. -/
theorem responsesAreDelivered : Obligations.ResponsesAreDelivered := by
  intro s p d hadm
  have hrsp (k : Kind) := respond_eq_next (k := k) (d := d) (p := p).mpr ⟨hadm, rfl⟩
  exact ⟨hrsp .ok, hrsp .timeout, hrsp .noAcknowledge, hrsp .arbitrationLost, hrsp .unsupportedAddressWidth,
    hrsp .busNotReady⟩

/-- Settles O9: each sequencer state forms its word from the registers and emits it as the row of that word does. -/
theorem sequencerFormsItsWords : Obligations.SequencerFormsItsWords := by
  intro s
  refine ⟨fun c hst hc => ?_, fun hst hlen => ?_, fun a hst haddr => ?_, fun hst => ?_⟩
  · rw [step, fetch, hst]
    exact withCtlr_of hc
  · rw [step, fetch, hst]
    simp only [SeqState.instr, exec, execHdrHdr2, hlen, if_false, sizeField_of_ne_zero hlen]
  · rw [step, fetch, hst]
    simp only [SeqState.instr, exec, execHdrHdr3, execHdr3, haddr]
  · rw [exec_responseOf, step, fetch, hst]
    rfl

/-- Settles O56: each visit accesses its register first. -/
theorem misalignedBasesRefused : Obligations.MisalignedBasesRefused := by
  intro s c hc
  constructor
  · intro hbase
    have htx : aligned4 (txFifoAddr c) = false := aligned4_add_eq_false hbase rfl
    have hrx : aligned4 (rxFifoAddr c) = false := aligned4_add_eq_false hbase rfl
    have hfifo : aligned4 (fifoStatusAddr c) = false := aligned4_add_eq_false hbase rfl
    have hint : aligned4 (intStatusAddr c) = false := aligned4_add_eq_false hbase rfl
    simp only [List.forall_mem_cons]
    exact ⟨readVisit_misaligned hc hint, writeVisit_misaligned hc hint,
      (withCtlr_of hc).trans (pushVisit_misaligned hc htx), execHdrHdr2_misaligned hc htx,
      pushVisit_misaligned hc htx, pushVisit_misaligned hc htx, readVisit_misaligned hc hfifo,
      readVisit_misaligned hc hfifo, readVisit_misaligned hc hrx, readVisit_misaligned hc hint, List.forall_mem_nil _⟩
  · intro hbase
    have hcnfg : aligned4 (cnfgAddr c) = false := aligned4_add_eq_false hbase (by split <;> rfl)
    have hsl : aligned4 (slCnfgAddr c) = false := aligned4_add_eq_false hbase rfl
    simp only [List.forall_mem_cons]
    exact ⟨writeVisit_misaligned hc hcnfg, readVisit_misaligned hc hsl, writeVisit_misaligned hc hsl,
      List.forall_mem_nil _⟩

/-- Settles O59: the entry is looked up before anything else, and an advance tests `words` first. -/
theorem stopsWhereTheSpecHasNoRun : Obligations.StopsWhereTheSpecHasNoRun := by
  intro s
  refine ⟨fun hindex => ?_, fun h0 hlimit => ?_, fun c hc hbase hlimit h0 hready => ?_⟩
  · have hc : s.ct[s.dC.toNat]? = none := Vector.getElem?_eq_none hindex
    have hvisit (f : Ctlr → Result State) : withCtlr s f = .fault .noController := withCtlr_none hc
    simp only [List.forall_mem_cons]
    exact ⟨hvisit _, hvisit _, hvisit _, execHdrHdr2_none hc, pushVisit_none hc, pushVisit_none hc, hvisit _, hvisit _,
      hvisit _, hvisit _, hvisit _, hvisit _, hvisit _, hvisit _, List.forall_mem_nil _⟩
  · obtain ⟨n, es, hstore⟩ := storeWord_unlimited hlimit
    rw [exec, execPopwRdStore, hstore, andThen_next]
    exact advanceWord_none h0
  · obtain ⟨-, -, hfifo, -⟩ := fifoBlock_aligned hbase
    rw [exec_waittxWrWait hc hfifo rfl (admits_of_unlimited hlimit 1), if_pos hready]
    exact advanceWord_none h0

end Sys2Proof.Machine
